-- ==== Sys2Proof/Word.lean ====
section
/-! DEFINITION. The widths of the 740 Family core: bytes, 16-bit addresses, bit numbers (spec 00_scope.md R3 "fixed by SM for
every product", 20_memory.md R30, R36, 30_encoding.md R51). -/

namespace Sys2Proof

/-- An 8-bit datum, register or memory byte (20_memory.md R36). -/
abbrev Byte := BitVec 8

/-- A 16-bit address or program counter value (20_memory.md R30, 10_state.md R14). -/
abbrev Word := BitVec 16

/-- A bit number 0 to 7, as the top three bits of an opcode carry it (30_encoding.md R53). -/
abbrev BitNumber := BitVec 3

end Sys2Proof
end

