-- ==== Sys2Proof/Config.lean ====
section
/-! DEFINITION. What a product of the family fixes (spec 00_scope.md R3: the configuration record), and the free values the
spec leaves undetermined (00_scope.md 5.3 UNSPECIFIED, 93_implementation_defined.md). -/

namespace Sys2Proof

/-- The read and write behaviour of an I/O register, bit by bit (00_scope.md R3 `MEMORY_MAP`, 20_memory.md R37: defined by the
product). These masks and numbers are the model's form of it: DESIGN CHOICE (assumption log 20). -/
structure RegisterBehaviour where
  /-- Bits that a read presents as held; every other bit of a read is a free value. -/
  readMask : Byte
  /-- Bits that a program's write stores; every other bit keeps what it holds (read-only bits). -/
  writeMask : Byte
  /-- Bits that the outside world can change (70_reset_and_hazards.md R208 (c)). -/
  outsideMask : Byte
  /-- The sources, by their number in the list of sources, whose request bit a write to this register may set
  (70_reset_and_hazards.md R207: the active edge of an interrupt, the source of a shared vector). -/
  mayRequest : List Nat
  deriving DecidableEq, Repr

/-- A register that holds the byte written to it and does nothing else. -/
def RegisterBehaviour.plain : RegisterBehaviour where
  readMask := 0xFF#8
  writeMask := 0xFF#8
  outsideMask := 0x00#8
  mayRequest := []

/-- What an address is in the product's memory map (20_memory.md R37, R45). -/
inductive MemoryKind where
  /-- Plain RAM: a read returns the last byte written (R37). -/
  | ram
  /-- ROM: a write has no effect (R37). -/
  | rom
  /-- An I/O register with the behaviour the product gives it: interrupt request, interrupt control, CPU mode register, or any
  other (R45). -/
  | register (behaviour : RegisterBehaviour)
  /-- An I/O register of which nothing is known: a read is a free value, a write has no effect on the CPU (R37). -/
  | device
  /-- Nothing there: a read is a free value, a write has no effect (R37, U9). -/
  | unmapped
  /-- The port register of port `n` (R40). -/
  | port (n : Nat)
  /-- The direction register of port `n`: it can be written and not read (R39). -/
  | direction (n : Nat)
  deriving DecidableEq, Repr

/-- One range of the memory map: `size` addresses from `base` on (20_memory.md R45). -/
structure Region where
  base : Word
  size : Nat
  kind : MemoryKind
  deriving DecidableEq, Repr

/-- How the high byte of a stack address is formed (R3 `STACK_PAGE_MODE` and `SPS`, 10_state.md R13). -/
inductive StackPageMode where
  /-- Always 0x01. -/
  | fixed01
  /-- The stack page selection bit, at this address and bit of the CPU mode register: 0x00 or 0x01. -/
  | sps (address : Word) (bit : BitNumber)
  deriving DecidableEq, Repr

/-- Where the second byte of a zero-page pointer that starts at 0x00FF is read (R3 `ZP_PTR_WRAP`, 20_memory.md R49). -/
inductive ZeroPagePointerWrap where
  | refuse
  | wrapInZeroPage
  | crossToPage1
  deriving DecidableEq, Repr

/-- Where execution starts after reset (R3 `VEC_RESET`, 70_reset_and_hazards.md R191). -/
inductive ResetEntry where
  /-- Directly the entry PC. -/
  | entry (pc : Word)
  /-- The address of a two-byte little-endian vector. -/
  | vector (address : Word)
  deriving DecidableEq, Repr

/-- One interrupt source (R3 `IRQ_SOURCES`, `WAKE_SOURCES_STP`, `WAKE_SOURCES_WIT`; 60_exceptions.md R171). Its priority is
its place in the list of sources, the first the highest. -/
structure IrqSource where
  requestAddress : Word
  requestBit : BitNumber
  enableAddress : Word
  enableBit : BitNumber
  vector : Word
  /-- Whether a program's write of 1 sets the request bit: product data (R174). -/
  setByWrite : Bool
  wakesStop : Bool
  wakesWait : Bool
  deriving DecidableEq, Repr

/-- What the product fixes for a port (20_memory.md R40): which value of a direction bit selects output mode, and for which
bits a read in output mode gives the peripheral's output rather than the port latch. -/
structure PortConfig where
  outputValue : Bool
  peripheralMask : Byte
  deriving DecidableEq, Repr, Inhabited

/-- The configuration record of spec 00_scope.md R3. -/
structure Config where
  /-- `HAS_MULDIV`. -/
  hasMulDiv : Bool
  /-- `STP_VALID`. -/
  stpValid : Bool
  /-- `HAS_WIT`. -/
  hasWit : Bool
  /-- `STACK_PAGE_MODE` and `SPS`. -/
  stackPage : StackPageMode
  /-- `VEC_BRK`. -/
  vecBrk : Word
  /-- `BRK_SHARES_VECTOR`. -/
  brkSharesVector : Bool
  /-- `IRQ_SOURCES`, highest priority first. -/
  irqSources : List IrqSource
  /-- `VEC_RESET`. -/
  vecReset : ResetEntry
  /-- `MEMORY_MAP`: the first range that holds an address decides; an address of no range is RAM. -/
  memoryMap : List Region
  /-- The ports that `MEMORY_MAP` refers to by number. -/
  ports : List PortConfig
  /-- `ZP_PTR_WRAP`. -/
  zeroPagePointerWrap : ZeroPagePointerWrap
  /-- `WAKE_REQUIRES_ACCEPT`. -/
  wakeRequiresAccept : Bool
  /-- Whether RAM keeps its bytes over a hardware reset (92_eei_decisions.md D28). -/
  ramKeptAtReset : Bool
  /-- `IRQ_ENTRY_CYCLES`. -/
  irqEntryCycles : Nat
  /-- `PHI_PERIOD`, in any fixed unit of time. -/
  phiPeriod : Nat
  deriving DecidableEq, Repr

/-- The product that `State.reset` describes. DESIGN CHOICE (assumption log 2), unsafe for a statement about the reset state
alone: SM fixes no product. Values: those the spec's examples assume (95_test_vectors.md conventions) and the spec's own
defaults (R3, C8, D4, D20); no interrupt source, no port, RAM everywhere. -/
def Config.reset : Config where
  hasMulDiv := true
  stpValid := true
  hasWit := true
  stackPage := .fixed01
  vecBrk := 0xFFF4#16
  brkSharesVector := false
  irqSources := []
  vecReset := .entry 0xC000#16
  memoryMap := []
  ports := []
  zeroPagePointerWrap := .refuse
  wakeRequiresAccept := true
  ramKeptAtReset := true
  irqEntryCycles := 7
  phiPeriod := 1

/-- Which read of an instruction or of an acceptance a byte is read by, so that two reads of one step that the spec leaves
unspecified have independent free values (93_implementation_defined.md U8, U9: any value, per read). -/
inductive Access where
  | opcode
  | operand1
  | operand2
  | pointerLow
  | pointerHigh
  /-- The operand M of the instruction. -/
  | data
  /-- The first operand M(X) when T = 1. -/
  | target
  | dividendLow
  | dividendHigh
  | pullFirst
  | pullSecond
  | pullThird
  | vectorLow
  | vectorHigh
  deriving DecidableEq, Repr

/-- Bytes the spec leaves unspecified although the machine goes on. -/
inductive FreeByte where
  /-- Result of a decimal ADC or SBC on an operand that is not packed BCD (U4). -/
  | decimalResult
  /-- A after DIV by 0 or with a quotient above 255 (U6). -/
  | quotient
  /-- The byte pushed by DIV in the same cases (U6). -/
  | remainder
  /-- A, X, Y, S and PS after a hardware reset (U1). -/
  | resetA
  | resetX
  | resetY
  | resetS
  | resetPS
  /-- The latch of port `n` after a hardware reset (R29: I/O registers are not in SM). -/
  | resetLatch (n : Nat)
  deriving DecidableEq, Repr

/-- Bits the spec leaves unspecified although the machine goes on. -/
inductive FreeBit where
  /-- C after a decimal ADC or SBC on an operand that is not packed BCD (U4). -/
  | decimalC
  /-- N, V, Z after a decimal ADC or SBC (U5). -/
  | decimalN
  | decimalV
  | decimalZ
  /-- Whether a write to the register at `address` sets the request bit of source `number`, one of those it may set (R207: "may"). -/
  | requestOnWrite (address : Word) (number : Nat)
  deriving DecidableEq, Repr

/-- FREE VALUE (assumption log 5, safe): the byte read where the spec gives the read no value, for the step numbered by the
first argument. It has no body, so nothing can be proved of it. -/
opaque Config.unspecifiedRead : Nat → Access → Word → Byte

/-- FREE VALUE (assumption log 5, safe): a result byte the spec leaves unspecified. -/
opaque Config.unspecifiedByte : Nat → FreeByte → Byte

/-- FREE VALUE (assumption log 5, safe): a flag the spec leaves unspecified. -/
opaque Config.unspecifiedBit : Nat → FreeBit → Bool

/-- FREE VALUE (assumption log 5, safe): the bytes a hardware reset leaves at addresses whose contents do not survive it, as an
arbitrary finite list of writes (92_eei_decisions.md D28). -/
opaque Config.unspecifiedMemory : Nat → List Host.Cell

end Sys2Proof
end

