-- ==== Sys2Proof/Machine/Bytes.lean ====
section
/-! DEFINITION. Byte order, extension and bit-field helpers (spec 00_scope.md 5.1, 20_memory.md R35). -/

namespace Sys2Proof

/-- The 16-bit value with high byte `hi` and low byte `lo`, written `{hi, lo}` in spec 00_scope.md 5.1. -/
def concat (hi lo : Byte) : Word := hi ++ lo

/-- Bits 15 to 8 of a 16-bit value. -/
def highByte (w : Word) : Byte := w.extractLsb' 8 8

/-- Bits 7 to 0 of a 16-bit value. -/
def lowByte (w : Word) : Byte := w.extractLsb' 0 8

/-- `zext_16`: an index register is used as an unsigned value 0 to 255 (40_addressing_modes.md R60). -/
def zext16 (b : Byte) : Word := b.zeroExtend 16

/-- `sext_16`: a displacement byte is two's complement, -128 to +127 (30_encoding.md R51). -/
def sext16 (b : Byte) : Word := b.signExtend 16

/-- The zero-page address `{0x00, zz}` (20_memory.md R31). -/
def zeroPage (zz : Byte) : Word := concat 0x00#8 zz

/-- Bit `k` of a byte, bit 0 the least significant (20_memory.md R35). -/
def bitOf (v : Byte) (k : Nat) : Bool := v.getLsbD k

/-- The byte with only bit `k` set, `1 << k`; zero when `k` is above 7. -/
def bitMask (k : Nat) : Byte := 1#8 <<< k

/-- The byte `v` with bit `k` made `b`, every other bit as it was. -/
def putBit (v : Byte) (k : Nat) (b : Bool) : Byte :=
  if b then v ||| bitMask k else v &&& ~~~ bitMask k

/-- Upper nibble of a byte, bits 7 to 4. -/
def highNibble (v : Byte) : BitVec 4 := v.extractLsb' 4 4

/-- Lower nibble of a byte, bits 3 to 0. -/
def lowNibble (v : Byte) : BitVec 4 := v.extractLsb' 0 4

end Sys2Proof
end

