-- ==== Sys2Proof/Machine/Flags.lean ====
section
/-! DEFINITION. The flags of PS and every flag computation (spec 10_state.md R15 to R24, 00_scope.md R4, 42_arithmetic.md R110,
R111, 43_logic_compare.md, 44_shift_rotate.md). Arithmetic is exact on integers and narrowed at the end. -/

namespace Sys2Proof.Machine

/-- The eight flags of the processor status register (10_state.md R15). -/
inductive Flag where
  | c
  | z
  | i
  | d
  | b
  | t
  | v
  | n
  deriving DecidableEq, Repr

/-- The flag's bit number in PS (10_state.md R15). -/
def Flag.bit : Flag → Nat
  | .c => 0
  | .z => 1
  | .i => 2
  | .d => 3
  | .b => 4
  | .t => 5
  | .v => 6
  | .n => 7

/-- The value of flag `f` in the status byte `ps`. -/
def flag (ps : Byte) (f : Flag) : Bool := bitOf ps f.bit

/-- The status byte with flag `f` made `b` and every other flag as it was. -/
def putFlag (ps : Byte) (f : Flag) (b : Bool) : Byte := putBit ps f.bit b

/-- `SetNZ(v)` (00_scope.md R4). -/
def setNZ (ps v : Byte) : Byte := putFlag (putFlag ps .n (bitOf v 7)) .z (v == 0x00#8)

/-- N and Z of the result, and C. -/
def setNZC (ps v : Byte) (c : Bool) : Byte := putFlag (setNZ ps v) .c c

/-- N, V, Z and C given one by one. -/
def putNVZC (ps : Byte) (n v z c : Bool) : Byte :=
  putFlag (putFlag (putFlag (putFlag ps .n n) .v v) .z z) .c c

/-- A computed byte and the status byte after it. -/
structure Computed where
  value : Byte
  ps : Byte
  deriving DecidableEq, Repr

/-- A sum or difference: the byte, the carry (no borrow) and the overflow. -/
structure Sum where
  value : Byte
  carry : Bool
  overflow : Bool
  deriving DecidableEq, Repr

/-- Whether an exact signed result exceeds +127 or -128 (42_arithmetic.md R111). -/
def overflows (exact : Int) : Bool := decide (exact > 127) || decide (exact < -128)

/-- `AddBinary(d, m, cin)` (42_arithmetic.md R111). -/
def addBinary (d m : Byte) (cin : Bool) : Sum :=
  let s := d.toNat + m.toNat + cin.toNat
  { value := BitVec.ofNat 8 s
    carry := decide (s > 255)
    overflow := overflows (d.toInt + m.toInt + cin.toNat) }

/-- `SubBinary(d, m, b)`, `b` the borrow-in (42_arithmetic.md R111). -/
def subBinary (d m : Byte) (b : Bool) : Sum :=
  let s : Int := (d.toNat : Int) - m.toNat - b.toNat
  { value := BitVec.ofInt 8 s
    carry := decide (s ≥ 0)
    overflow := overflows (d.toInt - m.toInt - b.toNat) }

/-- Whether each nibble of the byte is 0 to 9 (42_arithmetic.md R110). -/
def isBcd (v : Byte) : Bool := decide ((highNibble v).toNat ≤ 9) && decide ((lowNibble v).toNat ≤ 9)

/-- `dec(x)`: the number a packed decimal byte stands for (42_arithmetic.md R110). -/
def fromBcd (v : Byte) : Nat := 10 * (highNibble v).toNat + (lowNibble v).toNat

/-- `bcd(n)`: the packed decimal byte of a number 0 to 99 (42_arithmetic.md R110). -/
def toBcd (n : Nat) : Byte := BitVec.ofNat 8 (16 * (n / 10) + n % 10)

/-- A decimal result byte and carry. -/
structure DecimalSum where
  value : Byte
  carry : Bool
  deriving DecidableEq, Repr

/-- `AddDecimal(d, m, cin)` on packed decimal operands (42_arithmetic.md R110). -/
def addDecimal (d m : Byte) (cin : Bool) : DecimalSum :=
  let s := fromBcd d + fromBcd m + cin.toNat
  { value := toBcd (s % 100), carry := decide (s > 99) }

/-- `SubDecimal(d, m, b)` on packed decimal operands (42_arithmetic.md R110). -/
def subDecimal (d m : Byte) (b : Bool) : DecimalSum :=
  let s : Int := (fromBcd d : Int) - fromBcd m - b.toNat
  { value := toBcd (s % 100).toNat, carry := decide (s ≥ 0) }

/-- What a decimal ADC or SBC leaves: the decimal result and carry `r` when both operands are packed decimal, free values when one
is not (U4); N, V and Z are free values always (U5; 42_arithmetic.md R110). -/
def decimalComputed (draw : Nat) (ps d m : Byte) (r : DecimalSum) : Computed :=
  let valid := isBcd d && isBcd m
  { value := if valid then r.value else Config.unspecifiedByte draw .decimalResult
    ps := putNVZC ps (Config.unspecifiedBit draw .decimalN) (Config.unspecifiedBit draw .decimalV)
      (Config.unspecifiedBit draw .decimalZ) (if valid then r.carry else Config.unspecifiedBit draw .decimalC) }

/-- What a binary ADC or SBC leaves (42_arithmetic.md R100, R101, R111). -/
def binaryComputed (ps : Byte) (r : Sum) : Computed :=
  { value := r.value, ps := putNVZC ps (bitOf r.value 7) r.overflow (r.value == 0x00#8) r.carry }

/-- ADC on first operand `d` and operand `m`, binary or decimal by D (42_arithmetic.md R100). -/
def adcComputed (draw : Nat) (ps d m : Byte) : Computed :=
  if flag ps .d then decimalComputed draw ps d m (addDecimal d m (flag ps .c))
  else binaryComputed ps (addBinary d m (flag ps .c))

/-- SBC: the borrow-in is the complement of C (42_arithmetic.md R101). -/
def sbcComputed (draw : Nat) (ps d m : Byte) : Computed :=
  if flag ps .d then decimalComputed draw ps d m (subDecimal d m (!flag ps .c))
  else binaryComputed ps (subBinary d m (!flag ps .c))

/-- A result whose N and Z are set and nothing else. -/
def nzComputed (ps r : Byte) : Computed := { value := r, ps := setNZ ps r }

/-- AND (43_logic_compare.md R112). -/
def andComputed (ps d m : Byte) : Computed := nzComputed ps (d &&& m)

/-- ORA (43_logic_compare.md R113). -/
def oraComputed (ps d m : Byte) : Computed := nzComputed ps (d ||| m)

/-- EOR (43_logic_compare.md R114). -/
def eorComputed (ps d m : Byte) : Computed := nzComputed ps (d ^^^ m)

/-- The status byte after a compare of `d` with `m`: no borrow-in, V unchanged (43_logic_compare.md R118 to R120). -/
def comparePS (ps d m : Byte) : Byte :=
  let r := subBinary d m false
  setNZC ps r.value r.carry

/-- The status byte after BIT: N and V from the memory byte, Z from the AND (43_logic_compare.md R116). -/
def bitTestPS (ps a m : Byte) : Byte :=
  putFlag (putFlag (putFlag ps .n (bitOf m 7)) .v (bitOf m 6)) .z ((a &&& m) == 0x00#8)

/-- INC (42_arithmetic.md R102). -/
def incComputed (ps v : Byte) : Computed := nzComputed ps (v + 1#8)

/-- DEC (42_arithmetic.md R103). -/
def decComputed (ps v : Byte) : Computed := nzComputed ps (v - 1#8)

/-- COM (43_logic_compare.md R115). -/
def comComputed (ps v : Byte) : Computed := nzComputed ps (~~~v)

/-- ASL (44_shift_rotate.md R122). -/
def aslComputed (ps v : Byte) : Computed :=
  let r := v <<< 1
  { value := r, ps := setNZC ps r (bitOf v 7) }

/-- LSR: N becomes 0 (44_shift_rotate.md R123). -/
def lsrComputed (ps v : Byte) : Computed :=
  let r := v >>> 1
  { value := r, ps := putFlag (putFlag (putFlag ps .n false) .z (r == 0x00#8)) .c (bitOf v 0) }

/-- ROL: the old C enters bit 0 (44_shift_rotate.md R124). -/
def rolComputed (ps v : Byte) : Computed :=
  let r := putBit (v <<< 1) 0 (flag ps .c)
  { value := r, ps := setNZC ps r (bitOf v 7) }

/-- ROR: the old C enters bit 7 (44_shift_rotate.md R125). -/
def rorComputed (ps v : Byte) : Computed :=
  let r := putBit (v >>> 1) 7 (flag ps .c)
  { value := r, ps := setNZC ps r (bitOf v 0) }

/-- RRF: the two nibbles change places, no flag changes (44_shift_rotate.md R126). -/
def rrfComputed (ps v : Byte) : Computed := { value := lowNibble v ++ highNibble v, ps := ps }

end Sys2Proof.Machine
end

