-- ==== Sys2Proof/Machine/Memory.lean ====
section
/-! DEFINITION. The stored bytes of the address space, as a list of (address, byte) pairs in one canonical form: addresses strictly
rising and below 65536, no entry equal to what an unlisted address reads as (spec 10_state.md R25, 20_memory.md R30). -/

namespace Sys2Proof.Machine

/-- The stored bytes of the address space 0x0000 to 0xFFFF (20_memory.md R30). -/
abbrev Memory := List Host.Cell

/-- What an unlisted address reads as. DESIGN CHOICE (assumption log 3), unsafe for a statement that rests on it: the spec gives
memory no reset contents (10_state.md R29). -/
def Memory.unlisted : Byte := 0x00#8

/-- The byte stored at address `a`. -/
def Memory.read : Memory → Nat → Byte
  | [], _ => Memory.unlisted
  | (b, v) :: m, a => if b = a then v else Memory.read m a

/-- The memory without any entry for address `a`. -/
def Memory.erase (m : Memory) (a : Nat) : Memory := m.filter fun c => c.1 != a

/-- The memory with the entry `(a, v)` put in front of the first entry of a higher address. -/
def Memory.insert : Memory → Nat → Byte → Memory
  | [], a, v => [(a, v)]
  | (b, w) :: m, a, v => if a < b then (a, v) :: (b, w) :: m else (b, w) :: Memory.insert m a v

/-- The memory after `v` is stored at address `a`. Storing what an unlisted address reads as removes the entry. -/
def Memory.write (m : Memory) (a : Nat) (v : Byte) : Memory :=
  if v = Memory.unlisted then Memory.erase m a else Memory.insert (Memory.erase m a) a v

/-- The canonical form: addresses strictly rising and below 65536, no entry that an unlisted address would equal. -/
abbrev Memory.wf (m : Memory) : Prop :=
  m.Pairwise (fun c d => c.1 < d.1) ∧ ∀ c ∈ m, c.1 < 65536 ∧ c.2 ≠ Memory.unlisted

end Sys2Proof.Machine
end

