-- ==== Sys2Proof/Machine/State.lean ====
section
/-! DEFINITION. The state of the machine as plain data (spec 10_state.md R10 to R29), its reset value, and the reasons a step can
stop. -/

namespace Sys2Proof.Machine

/-- The run state of the clock (10_state.md R27). -/
inductive RunState where
  | run
  | wait
  | stop
  deriving DecidableEq, Repr

/-- What the previous instruction obliges the next one to be (10_state.md R28 (a), (b); 70_reset_and_hazards.md R193, R194). -/
inductive Hazard where
  | none
  /-- The previous instruction was PLP: the next one must be NOP (R193). -/
  | afterPlp
  /-- The previous instruction was ADC or SBC with D = 1: the next one must not be SEC, CLC or CLD (R194). -/
  | afterDecimal
  deriving DecidableEq, Repr

/-- A port's registers and what the outside drives into it (20_memory.md R39, R40). -/
structure Port where
  latch : Byte
  direction : Byte
  /-- Levels of the pins, driven from outside. -/
  pins : Byte
  /-- Output of the peripheral function that shares the port. -/
  peripheral : Byte
  deriving DecidableEq, Repr, Inhabited

/-- What the outside world can do at an instruction boundary (70_reset_and_hazards.md R208). -/
inductive OutsideMove where
  /-- Hardware reset (R208 (a), R190). -/
  | reset
  /-- Source number `k` of the list of sources sets its request bit (R208 (b), 60_exceptions.md R171). -/
  | request (k : Nat)
  /-- The pins of port `n` present the levels `v` (R208 (c)). -/
  | pins (n : Nat) (v : Byte)
  /-- The peripheral function of port `n` outputs `v` (R208 (c), 20_memory.md R40). -/
  | peripheral (n : Nat) (v : Byte)
  /-- The I/O register at `a` presents `v` in the bits the outside can change (R208 (c)). -/
  | register (a : Word) (v : Byte)
  deriving DecidableEq, Repr

/-- The whole state. The registers and bits are the spec's; `outside` and `draws` are the model's own. -/
structure State where
  /-- Accumulator A (R11). -/
  a : Byte
  /-- Index register X (R12). -/
  x : Byte
  /-- Index register Y (R12). -/
  y : Byte
  /-- Stack pointer S (R13). -/
  sp : Byte
  /-- Processor status register PS, N V T B D I Z C from bit 7 to bit 0 (R15). -/
  ps : Byte
  /-- Program counter PC (R14). -/
  pc : Word
  /-- Stored bytes of the address space, the interrupt request and enable bits and the stack page selection bit among them
  (R25, R26, R13). -/
  mem : Memory
  /-- The product's ports (20_memory.md R40). -/
  ports : List Port
  /-- Run state of the clock (R27). -/
  run : RunState
  /-- Obligation left by the previous instruction (R28 (a), (b)). -/
  hazard : Hazard
  /-- Bytes that request registers held before the previous instruction wrote them (R28 (c), 70_reset_and_hazards.md R195). -/
  lag : List Host.Cell
  /-- Bytes of request registers that the instruction in progress has overwritten, the first first; empty at every boundary. The
  model's own (assumption log 13): it becomes `lag`. -/
  overwritten : List Host.Cell
  /-- Sources accepted at the next boundary although their request bit was written 0, if I = 0 there (R28 (d), R196). -/
  forced : List IrqSource
  /-- Cycles of the internal clock so far (70_reset_and_hazards.md R202; assumption log 16). -/
  cycles : Nat
  /-- The product (00_scope.md R3; assumption log 18); no step changes it. -/
  cfg : Config
  /-- What the outside world does at each coming boundary, the next first (70_reset_and_hazards.md R208;
  assumption log 4). -/
  outside : List (List OutsideMove)
  /-- The index of the next free values (00_scope.md 5.3 UNSPECIFIED; assumption log 5). -/
  draws : Nat
  deriving DecidableEq, Repr

/-- Reasons a step stops with a fault: none. The CPU raises no synchronous exception but BRK, which is taken as a next state
(60_exceptions.md R180, 20_memory.md R46), so nothing raises a value of this type. -/
inductive Fault where
  deriving DecidableEq, Repr

/-- Reasons the model gives a step no meaning. Each but the first is a REFUSE of the spec (00_scope.md 5.3). -/
inductive Refusal where
  /-- An instruction whose meaning is not written yet; no arm of `exec` raises it. Safe. -/
  | notModelled (mnemonic : String)
  /-- The fetch: the opcode has no instruction (30_encoding.md R54). Safe: the real part does something. -/
  | undefinedOpcode (opcode : Byte)
  /-- MUL, DIV or WIT on a product that lacks it (30_encoding.md R54). Safe. -/
  | absentInstruction (mnemonic : String)
  /-- `JMP ($xxFF)` (70_reset_and_hazards.md R197). Safe. -/
  | jmpIndirectPageEnd
  /-- A zero-page pointer or dividend that starts at 0xFF, with `ZP_PTR_WRAP` = `Refuse` (20_memory.md R49). Safe. -/
  | zeroPagePointerPageEnd
  /-- The step: an instruction other than NOP right after PLP (70_reset_and_hazards.md R193). Safe. -/
  | plpWithoutNop
  /-- The step: SEC, CLC or CLD right after a decimal ADC or SBC (70_reset_and_hazards.md R194). Safe. -/
  | flagChangeAfterDecimal
  deriving DecidableEq, Repr

/-- What a meaning answers. -/
abbrev Result := Host.Outcome State Fault Refusal

/-- The machine right after reset (10_state.md R29, 70_reset_and_hazards.md R190): I = 1, RUN, ports in input mode. The spec
gives A, X, Y, S, PC and the other flags no value; the values here are DESIGN CHOICES (assumption logs 1 to 5), unsafe for a
statement about this one state that rests on them. -/
def State.reset : State where
  a := 0x00#8
  x := 0x00#8
  y := 0x00#8
  sp := 0x00#8
  ps := 0x04#8
  pc := 0xC000#16
  mem := []
  ports := []
  run := .run
  hazard := .none
  lag := []
  overwritten := []
  forced := []
  cycles := 0
  cfg := Config.reset
  outside := []
  draws := 0

end Sys2Proof.Machine
end

