-- ==== Sys2Proof/Machine/Ops.lean ====
section
/-! DEFINITION. The named operations over memory, registers and the stack, taking an exception and returning from one (spec
00_scope.md R5, 20_memory.md R33 to R40, 60_exceptions.md R173). -/

namespace Sys2Proof.Machine

/-- Whether the region holds the address (20_memory.md R45). -/
def regionHolds (r : Region) (a : Word) : Bool :=
  decide (r.base.toNat ≤ a.toNat) && decide (a.toNat < r.base.toNat + r.size)

/-- What the product has at an address: the first region that holds it, RAM if none does (20_memory.md R45, assumption log 2). -/
def kindAt (c : Config) (a : Word) : MemoryKind :=
  match c.memoryMap.find? fun r => regionHolds r a with
  | some r => r.kind
  | none => .ram

/-- Port `n` as the state holds it. -/
def State.port (s : State) (n : Nat) : Port := s.ports.getD n default

/-- What the product fixes for port `n`. -/
def portConfig (c : Config) (n : Nat) : PortConfig := c.ports.getD n default

/-- What a read of a port register gives: an input-mode bit reads the pin, an output-mode bit the port latch or the peripheral's
output (20_memory.md R40). The polarity and the mask are the product's: DESIGN CHOICE (assumption log 17), safe. -/
def portRead (c : PortConfig) (p : Port) : Byte :=
  let output := if c.outputValue then p.direction else ~~~p.direction
  let driven := (c.peripheralMask &&& p.peripheral) ||| (~~~c.peripheralMask &&& p.latch)
  (output &&& driven) ||| (~~~output &&& p.pins)

/-- The direction register value in which every bit selects input mode (70_reset_and_hazards.md R190). -/
def inputDirection (c : PortConfig) : Byte := if c.outputValue then 0x00#8 else 0xFF#8

/-- What a read of address `a` presents, made as the read `acc` of the step, where the byte held there is `held` (20_memory.md R37,
R39, R40, R43; 00_scope.md R3). What the spec leaves unspecified is a free value. A register whose bits all read as held is told
apart only so that it evaluates. -/
def State.presented (s : State) (acc : Access) (a : Word) (held : Byte) : Byte :=
  match kindAt s.cfg a with
  | .ram | .rom => held
  | .register b =>
    if b.readMask = 0xFF#8 then held
    else (b.readMask &&& held) ||| (~~~b.readMask &&& Config.unspecifiedRead s.draws acc a)
  | .port n => portRead (portConfig s.cfg n) (s.port n)
  | .direction _ | .device | .unmapped => Config.unspecifiedRead s.draws acc a

/-- `MemRead(a, 1)`, made as the read `acc` of the step (20_memory.md R37). Reads change no state, a device's neither: DESIGN CHOICE
(assumption log 8), unsafe. -/
def State.busRead (s : State) (acc : Access) (a : Word) : Byte := s.presented acc a (s.mem.read a.toNat)

/-- The byte `v` with the request bit of each source that `p` admits and that lies at address `a` replaced by `f` of that bit of `old`
and of `v`. -/
def mapRequestBits (c : Config) (a : Word) (p : IrqSource → Bool) (f : Bool → Bool → Bool) (old v : Byte) : Byte :=
  c.irqSources.foldl
    (fun w q =>
      if q.requestAddress = a ∧ p q = true then
        putBit w q.requestBit.toNat (f (bitOf old q.requestBit.toNat) (bitOf w q.requestBit.toNat))
      else w)
    v

/-- The byte an address holds after a program writes `v` over `old`: a request bit that the product does not let a program set
stays 0 where it was 0 (60_exceptions.md R174). DESIGN CHOICE (assumption log 9), safe: both readings are products. -/
def storedByte (c : Config) (a : Word) (old v : Byte) : Byte :=
  mapRequestBits c a (fun q => !q.setByWrite) (fun o n => n && o) old v

/-- The bits of `v` that the mask selects, and those of `old` elsewhere. -/
def underMask (mask old v : Byte) : Byte := (mask &&& v) ||| (~~~mask &&& old)

/-- The memory with the request bit of a source made `b`. -/
def putRequestBit (m : Memory) (q : IrqSource) (b : Bool) : Memory :=
  m.write q.requestAddress.toNat (putBit (m.read q.requestAddress.toNat) q.requestBit.toNat b)

/-- The memory after the side effect of a write to the register at `a`: the request bit of each of these sources set, or not, as a
free value says (70_reset_and_hazards.md R207: a write "may set the affected `req(s)` to 1"; assumption log 11). -/
def requestsOnWrite (c : Config) (draw : Nat) (a : Word) (numbers : List Nat) (m : Memory) : Memory :=
  numbers.foldl
    (fun m k =>
      match c.irqSources[k]?, Config.unspecifiedBit draw (.requestOnWrite a k) with
      | some q, true => putRequestBit m q true
      | _, _ => m)
    m

/-- The bytes of request registers overwritten so far, with the one at `a` if it is one (R195; assumption log 13). -/
def State.noteWrite (s : State) (a : Word) : List Host.Cell :=
  if s.cfg.irqSources.any fun q => decide (q.requestAddress = a) then s.overwritten ++ [(a.toNat, s.mem.read a.toNat)]
  else s.overwritten

/-- `MemWrite(a, 1, v)` (20_memory.md R37, R39, R40; 92_eei_decisions.md D11: a write to ROM or to nothing is dropped). -/
def State.busWrite (s : State) (a : Word) (v : Byte) : State :=
  let old := s.mem.read a.toNat
  match kindAt s.cfg a with
  | .ram => { s with mem := s.mem.write a.toNat (storedByte s.cfg a old v), overwritten := s.noteWrite a }
  | .register b =>
    { s with
      mem := requestsOnWrite s.cfg s.draws a b.mayRequest
        (s.mem.write a.toNat (storedByte s.cfg a old (underMask b.writeMask old v)))
      overwritten := s.noteWrite a }
  | .port n => { s with ports := s.ports.set n { s.port n with latch := v } }
  | .direction n => { s with ports := s.ports.set n { s.port n with direction := v } }
  | .rom | .device | .unmapped => s

/-- PC past an instruction of `n` bytes (00_scope.md R6, 92_eei_decisions.md D1). -/
def State.advance (s : State) (n : Nat) : State := { s with pc := s.pc + BitVec.ofNat 16 n }

/-- The high byte of a stack address, read at each stack access (10_state.md R13). -/
def State.stackPage (s : State) : Byte :=
  match s.cfg.stackPage with
  | .fixed01 => 0x01#8
  | .sps a k => if bitOf (s.mem.read a.toNat) k.toNat then 0x01#8 else 0x00#8

/-- `StackAddr(v)` (10_state.md R13, 20_memory.md R33). -/
def State.stackAddress (s : State) (v : Byte) : Word := concat s.stackPage v

/-- `Push(v)`: store at the address S indicates, then S - 1 modulo 256 (00_scope.md R5). -/
def State.push (s : State) (v : Byte) : State :=
  let t := s.busWrite (s.stackAddress s.sp) v
  { t with sp := t.sp - 1#8 }

/-- The state after `Pull()`: S + 1 modulo 256 (00_scope.md R5). -/
def State.afterPull (s : State) : State := { s with sp := s.sp + 1#8 }

/-- The byte `Pull()` gives: read at the address the new S indicates (00_scope.md R5). -/
def State.pulled (s : State) (acc : Access) : Byte := s.busRead acc (s.stackAddress (s.sp + 1#8))

/-- The first operand of ADC, AND, CMP, EOR, ORA, SBC: A, or M(X) when T = 1 (10_state.md R21). -/
def State.dstRead (s : State) : Byte := if flag s.ps .t then s.busRead .target (zext16 s.x) else s.a

/-- The destination of ADC, AND, EOR, LDA, ORA, SBC: A, or M(X) when T = 1 (10_state.md R21). -/
def State.dstWrite (s : State) (v : Byte) : State :=
  if flag s.ps .t then s.busWrite (zext16 s.x) v else { s with a := v }

/-- The request bit `req(q)` (60_exceptions.md R171). -/
def State.requested (s : State) (q : IrqSource) : Bool :=
  bitOf (s.mem.read q.requestAddress.toNat) q.requestBit.toNat

/-- The enable bit `en(q)` (60_exceptions.md R171). -/
def State.enabled (s : State) (q : IrqSource) : Bool :=
  bitOf (s.mem.read q.enableAddress.toNat) q.enableBit.toNat

/-- The source's request bit made `b` by the hardware (60_exceptions.md R171, R174). -/
def State.putRequest (s : State) (q : IrqSource) (b : Bool) : State :=
  { s with mem := putRequestBit s.mem q b }

/-- The first part of taking an exception: B made `b`, then PCH, PCL and PS pushed, then I made 1 (60_exceptions.md R173,
47_interrupt_special_other.md R157). T and D stay (92_eei_decisions.md D21). -/
def State.saveContext (s : State) (ret : Word) (b : Bool) : State :=
  let s0 := { s with ps := putFlag s.ps .b b }
  let s1 := ((s0.push (highByte ret)).push (lowByte ret)).push s0.ps
  { s1 with ps := putFlag s1.ps .i true }

/-- PC loaded from the two-byte vector at `v`, low byte first (20_memory.md R34, R35). -/
def State.loadVector (s : State) (v : Word) : State :=
  { s with pc := concat (s.busRead .vectorHigh (v + 1#16)) (s.busRead .vectorLow v) }

/-- TAKING AN EXCEPTION, the one operation BRK and interrupt acceptance share: save the return address `ret` and PS with B = `b`,
set I, clear the request bit of an accepted source, go to the vector (60_exceptions.md R173, 47_interrupt_special_other.md
R157). -/
def State.enterException (s : State) (ret : Word) (b : Bool) (accepted : Option IrqSource) (vector : Word) : State :=
  let t := s.saveContext ret b
  let u := match accepted with
    | some q => t.putRequest q false
    | none => t
  u.loadVector vector

/-- RETURNING FROM AN EXCEPTION: PS, PCL and PCH pulled in this order, no adjustment (46_jump_branch_return.md R153,
60_exceptions.md R178). -/
def State.returnFromException (s : State) : State :=
  let ps := s.pulled .pullFirst
  let s1 := s.afterPull
  let lo := s1.pulled .pullSecond
  let s2 := s1.afterPull
  let hi := s2.pulled .pullThird
  { s2.afterPull with ps := ps, pc := concat hi lo }

/-- The vector BRK uses when no masked source is pending: VEC_BRK, or the vector of the lowest-priority source where the product
shares it (00_scope.md R3 `VEC_BRK`, `BRK_SHARES_VECTOR`). Shared with no source in the list: VEC_BRK, DESIGN CHOICE (assumption log
14), unsafe; the spec names no such product. -/
def brkVector (c : Config) : Word :=
  match c.brkSharesVector, c.irqSources.getLast? with
  | true, some q => q.vector
  | _, _ => c.vecBrk

/-- The source whose vector a BRK uses: with I = 1, the highest-priority one with request and enable bits both 1
(60_exceptions.md R177). BRK asks before it pushes: DEDUCED (assumption log 14), unsafe. -/
def State.maskedPending (s : State) : Option IrqSource :=
  if flag s.ps .i then s.cfg.irqSources.find? fun q => s.requested q && s.enabled q else none

/-- Whether bit `k` of address `a` is the request bit of a source. -/
def isRequestBit (c : Config) (a : Word) (k : Nat) : Bool :=
  c.irqSources.any fun q => decide (q.requestAddress = a) && decide (q.requestBit.toNat = k)

/-- The byte a request register held before the previous instruction wrote it, if that instruction did (R195). -/
def State.lagging (s : State) (a : Word) : Option Byte :=
  (s.lag.find? fun c => c.1 == a.toNat).map (·.2)

/-- Bit `i` of the zero-page byte `zz` as BBC and BBS test it: a request bit that the previous instruction wrote still shows its
old value (70_reset_and_hazards.md R195, U10). -/
def State.testedBit (s : State) (zz : Byte) (i : BitNumber) : Bool :=
  match isRequestBit s.cfg (zeroPage zz) i.toNat, s.lagging (zeroPage zz) with
  | true, some old => bitOf (s.presented .data (zeroPage zz) old) i.toNat
  | _, _ => bitOf (s.busRead .data (zeroPage zz)) i.toNat

/-- Go on with a formed operand, or refuse where the spec gives its formation no meaning. -/
def proceed {α : Type} (e : Except Refusal α) (k : α → State) : Result :=
  match e with
  | .ok v => .next (k v)
  | .error r => .refused r

end Sys2Proof.Machine
end

