-- ==== Sys2Proof/Machine/Operands.lean ====
section
/-! DEFINITION. The addressing modes (spec 40_addressing_modes.md R60 to R79): effective addresses, operands, branch targets.
Forming an address changes no register or flag (R60). -/

namespace Sys2Proof.Machine

/-- The modes that designate a memory byte. -/
inductive MemMode where
  /-- Zero page (R63); also the zero page bit modes (R76, R79). -/
  | zp (zz : Byte)
  /-- Zero page X (R64). -/
  | zpX (zz : Byte)
  /-- Zero page Y (R65). -/
  | zpY (zz : Byte)
  /-- Absolute (R66). -/
  | abs (hhll : Word)
  /-- Absolute X (R67). -/
  | absX (hhll : Word)
  /-- Absolute Y (R68). -/
  | absY (hhll : Word)
  /-- Indirect X (R71). -/
  | indX (zz : Byte)
  /-- Indirect Y (R72). -/
  | indY (zz : Byte)
  deriving DecidableEq, Repr

/-- An operand that is read: immediate data (R61) or a memory byte. -/
inductive Operand where
  | imm (nn : Byte)
  | mem (m : MemMode)
  deriving DecidableEq, Repr

/-- The address of the second byte of a two-byte item of the zero page that starts at `p` (20_memory.md R49). -/
def secondByte (w : ZeroPagePointerWrap) (p : Byte) : Except Refusal Word :=
  if p = 0xFF#8 then
    match w with
    | .refuse => .error .zeroPagePointerPageEnd
    | .wrapInZeroPage => .ok 0x0000#16
    | .crossToPage1 => .ok 0x0100#16
  else .ok (zeroPage (p + 1#8))

/-- The two-byte pointer in the zero page at `p`, low byte first (20_memory.md R35, R49). -/
def State.zeroPagePointer (s : State) (p : Byte) : Except Refusal Word :=
  match secondByte s.cfg.zeroPagePointerWrap p with
  | .ok h => .ok (concat (s.busRead .pointerHigh h) (s.busRead .pointerLow (zeroPage p)))
  | .error r => .error r

/-- The effective address `ea` of a memory mode (40_addressing_modes.md R63 to R68, R71, R72; 20_memory.md R30, R48). -/
def MemMode.address (m : MemMode) (s : State) : Except Refusal Word :=
  match m with
  | .zp zz => .ok (zeroPage zz)
  | .zpX zz => .ok (zeroPage (zz + s.x))
  | .zpY zz => .ok (zeroPage (zz + s.y))
  | .abs hhll => .ok hhll
  | .absX hhll => .ok (hhll + zext16 s.x)
  | .absY hhll => .ok (hhll + zext16 s.y)
  | .indX zz => s.zeroPagePointer (zz + s.x)
  | .indY zz =>
    match s.zeroPagePointer zz with
    | .ok base => .ok (base + zext16 s.y)
    | .error r => .error r

/-- The operand value `M` of an instruction that reads (41_data_transfer.md conventions, 40_addressing_modes.md R61). -/
def Operand.read (o : Operand) (s : State) : Except Refusal Byte :=
  match o with
  | .imm nn => .ok nn
  | .mem m =>
    match m.address s with
    | .ok ea => .ok (s.busRead .data ea)
    | .error r => .error r

/-- The target of a relative branch of `n` bytes at `pc0` (40_addressing_modes.md R70, R78, R79). -/
def branchTarget (pc0 : Word) (n : Nat) (rr : Byte) : Word := pc0 + BitVec.ofNat 16 n + sext16 rr

/-- The target of `JMP ($hhll)`, refused at a page end (40_addressing_modes.md R73, 20_memory.md R49). -/
def State.indirectTarget (s : State) (hhll : Word) : Except Refusal Word :=
  if lowByte hhll = 0xFF#8 then .error .jmpIndirectPageEnd
  else .ok (concat (s.busRead .pointerHigh (hhll + 1#16)) (s.busRead .pointerLow hhll))

end Sys2Proof.Machine
end

