-- ==== Sys2Proof/Machine/Shapes.lean ====
section
/-! DEFINITION. The shapes that the meanings of the instructions share: each instruction is one line over one of these (spec files
41 to 47, conventions at the head of 41_data_transfer.md). `n` is the instruction's length: PC becomes `pc0 + n` unless the
instruction assigns PC. -/

namespace Sys2Proof.Machine

/-- LDA: the operand goes to A, or to M(X) when T = 1; N and Z from it (41_data_transfer.md R81). -/
def loadDestination (n : Nat) (o : Operand) (s : State) : Result :=
  proceed (o.read s) fun v => { (s.advance n).dstWrite v with ps := setNZ s.ps v }

/-- ADC, SBC, AND, ORA, EOR: `f` of PS, the first operand (A or M(X)) and M, written back to A or M(X) (42_arithmetic.md R100,
R101; 43_logic_compare.md R112 to R114). -/
def accumulate (n : Nat) (f : Byte → Byte → Byte → Computed) (o : Operand) (s : State) : Result :=
  proceed (o.read s) fun m =>
    let r := f s.ps s.dstRead m
    { (s.advance n).dstWrite r.value with ps := r.ps }

/-- CMP: A or M(X) compared with M, only the flags change (43_logic_compare.md R118). -/
def compareDestination (n : Nat) (o : Operand) (s : State) : Result :=
  proceed (o.read s) fun m => { s.advance n with ps := comparePS s.ps s.dstRead m }

/-- CPX, CPY: the register value `d` compared with M (43_logic_compare.md R119, R120). -/
def compareRegister (n : Nat) (d : Byte) (o : Operand) (s : State) : Result :=
  proceed (o.read s) fun m => { s.advance n with ps := comparePS s.ps d m }

/-- LDX (41_data_transfer.md R83). -/
def loadX (n : Nat) (o : Operand) (s : State) : Result :=
  proceed (o.read s) fun v => { s.advance n with x := v, ps := setNZ s.ps v }

/-- LDY (41_data_transfer.md R84). -/
def loadY (n : Nat) (o : Operand) (s : State) : Result :=
  proceed (o.read s) fun v => { s.advance n with y := v, ps := setNZ s.ps v }

/-- STA, STX, STY: the value `v` stored at the effective address (41_data_transfer.md R85 to R87). -/
def store (n : Nat) (v : Byte) (m : MemMode) (s : State) : Result :=
  proceed (m.address s) fun ea => (s.advance n).busWrite ea v

/-- BIT, TST: the status byte `f` of PS and M, nothing else (43_logic_compare.md R116, R117). -/
def testMemory (n : Nat) (f : Byte → Byte → Byte) (m : MemMode) (s : State) : Result :=
  proceed (m.address s) fun ea => { s.advance n with ps := f s.ps (s.busRead .data ea) }

/-- A read-modify-write instruction: one read, one write of the whole byte at the same address (20_memory.md R38). -/
def modifyMemory (n : Nat) (f : Byte → Byte → Computed) (m : MemMode) (s : State) : Result :=
  proceed (m.address s) fun ea =>
    let r := f s.ps (s.busRead .data ea)
    { (s.advance n).busWrite ea r.value with ps := r.ps }

/-- The accumulator form of the same instructions (40_addressing_modes.md R62, R77). -/
def modifyA (f : Byte → Byte → Computed) (s : State) : Result :=
  let r := f s.ps s.a
  .next { s.advance 1 with a := r.value, ps := r.ps }

/-- An instruction that only makes one flag `b` (45_bit_and_flag.md R130 to R138). -/
def changeFlag (f : Flag) (b : Bool) (s : State) : Result :=
  .next { s.advance 1 with ps := putFlag s.ps f b }

/-- PC becomes the branch target if `taken`, the next instruction otherwise (46_jump_branch_return.md R143, R144, R155). -/
def branchWhen (taken : Bool) (n : Nat) (rr : Byte) (s : State) : Result :=
  .next { s with pc := if taken then branchTarget s.pc n rr else s.pc + BitVec.ofNat 16 n }

/-- JSR: the address of its last byte pushed, high byte first; the target is formed after the pushes (46_jump_branch_return.md
R142, 92_eei_decisions.md D12). -/
def callSubroutine (n : Nat) (target : State → Except Refusal Word) (s : State) : Result :=
  let ret := s.pc + BitVec.ofNat 16 n - 1#16
  let t := ((s.advance n).push (highByte ret)).push (lowByte ret)
  proceed (target t) fun pc => { t with pc := pc }

/-- An instruction only some products have (30_encoding.md R54, R58). -/
def whenPresent (present : Bool) (mnemonic : String) (r : Result) : Result :=
  if present then r else .refused (.absentInstruction mnemonic)

/-- A byte with bit `i` made `b`, PS unchanged (45_bit_and_flag.md R128, R129). -/
def bitComputed (i : BitNumber) (b : Bool) (ps v : Byte) : Computed := { value := putBit v i.toNat b, ps := ps }

/-- TST: N and Z from the memory byte (43_logic_compare.md R117). -/
def zeroTestPS (ps m : Byte) : Byte := setNZ ps m

end Sys2Proof.Machine
end

