-- ==== Sys2Proof/Machine/Arith.lean ====
section
/-! DEFINITION. The arithmetic instructions: add, subtract, increment, decrement, multiply, divide (spec 42_arithmetic.md). -/

namespace Sys2Proof.Machine

/-- `ADC ($zz,X)` (R100, R71). -/
def execAdcIndX (zz : Byte) (s : State) : Result :=
  accumulate 2 (adcComputed s.draws) (.mem (.indX zz)) s

/-- `ADC $zz` (R100, R63). -/
def execAdcZp (zz : Byte) (s : State) : Result :=
  accumulate 2 (adcComputed s.draws) (.mem (.zp zz)) s

/-- `ADC #$nn` (R100, R61). -/
def execAdcImm (nn : Byte) (s : State) : Result :=
  accumulate 2 (adcComputed s.draws) (.imm nn) s

/-- `ADC $hhll` (R100, R66). -/
def execAdcAbs (hhll : Word) (s : State) : Result :=
  accumulate 3 (adcComputed s.draws) (.mem (.abs hhll)) s

/-- `ADC ($zz),Y` (R100, R72). -/
def execAdcIndY (zz : Byte) (s : State) : Result :=
  accumulate 2 (adcComputed s.draws) (.mem (.indY zz)) s

/-- `ADC $zz,X` (R100, R64). -/
def execAdcZpX (zz : Byte) (s : State) : Result :=
  accumulate 2 (adcComputed s.draws) (.mem (.zpX zz)) s

/-- `ADC $hhll,Y` (R100, R68). -/
def execAdcAbsY (hhll : Word) (s : State) : Result :=
  accumulate 3 (adcComputed s.draws) (.mem (.absY hhll)) s

/-- `ADC $hhll,X` (R100, R67). -/
def execAdcAbsX (hhll : Word) (s : State) : Result :=
  accumulate 3 (adcComputed s.draws) (.mem (.absX hhll)) s

/-- `SBC ($zz,X)` (R101, R71). -/
def execSbcIndX (zz : Byte) (s : State) : Result :=
  accumulate 2 (sbcComputed s.draws) (.mem (.indX zz)) s

/-- `SBC $zz` (R101, R63). -/
def execSbcZp (zz : Byte) (s : State) : Result :=
  accumulate 2 (sbcComputed s.draws) (.mem (.zp zz)) s

/-- `SBC #$nn` (R101, R61). -/
def execSbcImm (nn : Byte) (s : State) : Result :=
  accumulate 2 (sbcComputed s.draws) (.imm nn) s

/-- `SBC $hhll` (R101, R66). -/
def execSbcAbs (hhll : Word) (s : State) : Result :=
  accumulate 3 (sbcComputed s.draws) (.mem (.abs hhll)) s

/-- `SBC ($zz),Y` (R101, R72). -/
def execSbcIndY (zz : Byte) (s : State) : Result :=
  accumulate 2 (sbcComputed s.draws) (.mem (.indY zz)) s

/-- `SBC $zz,X` (R101, R64). -/
def execSbcZpX (zz : Byte) (s : State) : Result :=
  accumulate 2 (sbcComputed s.draws) (.mem (.zpX zz)) s

/-- `SBC $hhll,Y` (R101, R68). -/
def execSbcAbsY (hhll : Word) (s : State) : Result :=
  accumulate 3 (sbcComputed s.draws) (.mem (.absY hhll)) s

/-- `SBC $hhll,X` (R101, R67). -/
def execSbcAbsX (hhll : Word) (s : State) : Result :=
  accumulate 3 (sbcComputed s.draws) (.mem (.absX hhll)) s

/-- `INC A` (R102, R62). -/
def execIncA (s : State) : Result :=
  modifyA incComputed s

/-- `INC $zz` (R102, R63). -/
def execIncZp (zz : Byte) (s : State) : Result :=
  modifyMemory 2 incComputed (.zp zz) s

/-- `INC $hhll` (R102, R66). -/
def execIncAbs (hhll : Word) (s : State) : Result :=
  modifyMemory 3 incComputed (.abs hhll) s

/-- `INC $zz,X` (R102, R64). -/
def execIncZpX (zz : Byte) (s : State) : Result :=
  modifyMemory 2 incComputed (.zpX zz) s

/-- `INC $hhll,X` (R102, R67). -/
def execIncAbsX (hhll : Word) (s : State) : Result :=
  modifyMemory 3 incComputed (.absX hhll) s

/-- `DEC A` (R103, R62). -/
def execDecA (s : State) : Result :=
  modifyA decComputed s

/-- `DEC $zz` (R103, R63). -/
def execDecZp (zz : Byte) (s : State) : Result :=
  modifyMemory 2 decComputed (.zp zz) s

/-- `DEC $hhll` (R103, R66). -/
def execDecAbs (hhll : Word) (s : State) : Result :=
  modifyMemory 3 decComputed (.abs hhll) s

/-- `DEC $zz,X` (R103, R64). -/
def execDecZpX (zz : Byte) (s : State) : Result :=
  modifyMemory 2 decComputed (.zpX zz) s

/-- `DEC $hhll,X` (R103, R67). -/
def execDecAbsX (hhll : Word) (s : State) : Result :=
  modifyMemory 3 decComputed (.absX hhll) s

/-- `INX` (R104, R69). -/
def execInx (s : State) : Result :=
  .next { s.advance 1 with x := s.x + 1#8, ps := setNZ s.ps (s.x + 1#8) }

/-- `DEX` (R105, R69). -/
def execDex (s : State) : Result :=
  .next { s.advance 1 with x := s.x - 1#8, ps := setNZ s.ps (s.x - 1#8) }

/-- `INY` (R106, R69). -/
def execIny (s : State) : Result :=
  .next { s.advance 1 with y := s.y + 1#8, ps := setNZ s.ps (s.y + 1#8) }

/-- `DEY` (R107, R69). -/
def execDey (s : State) : Result :=
  .next { s.advance 1 with y := s.y - 1#8, ps := setNZ s.ps (s.y - 1#8) }

/-- MUL on a product that has it: the unsigned product of A and the zero-page-X byte; its upper byte is pushed, its lower byte goes
to A, PS stays (42_arithmetic.md R108). -/
def multiply (zz : Byte) (s : State) : Result :=
  let m := s.busRead .data (zeroPage (zz + s.x))
  let p := BitVec.ofNat 16 (s.a.toNat * m.toNat)
  .next { (s.advance 2).push (highByte p) with a := lowByte p }

/-- `MUL $zz,X` (R108, R64). -/
def execMulZpX (zz : Byte) (s : State) : Result :=
  whenPresent s.cfg.hasMulDiv "MUL" (multiply zz s)

/-- DIV on a product that has it: the 16-bit zero-page-X dividend by A, unsigned; the one's complement of the remainder is pushed,
the quotient goes to A, PS stays. Division by 0 and a quotient above 255 are not detected: A and the pushed byte are then free
values (42_arithmetic.md R109, 93_implementation_defined.md U6, assumption log 5). -/
def divide (zz : Byte) (s : State) : Result :=
  let p := zz + s.x
  proceed (secondByte s.cfg.zeroPagePointerWrap p) fun h =>
    let w := concat (s.busRead .dividendHigh h) (s.busRead .dividendLow (zeroPage p))
    if s.a.toNat = 0 ∨ w.toNat / s.a.toNat > 255 then
      { (s.advance 2).push (Config.unspecifiedByte s.draws .remainder) with
        a := Config.unspecifiedByte s.draws .quotient }
    else
      { (s.advance 2).push (~~~BitVec.ofNat 8 (w.toNat % s.a.toNat)) with
        a := BitVec.ofNat 8 (w.toNat / s.a.toNat) }

/-- `DIV $zz,X` (R109, R64). -/
def execDivZpX (zz : Byte) (s : State) : Result :=
  whenPresent s.cfg.hasMulDiv "DIV" (divide zz s)

end Sys2Proof.Machine
end

