-- ==== Sys2Proof/Machine/BitFlag.lean ====
section
/-! DEFINITION. The bit-manipulation and flag-setting instructions (spec 45_bit_and_flag.md). -/

namespace Sys2Proof.Machine

/-- `CLB i,A` (R128, R77). -/
def execClbA (i : BitNumber) (s : State) : Result :=
  modifyA (bitComputed i false) s

/-- `CLB i,$zz` (R128, R76). -/
def execClbZp (i : BitNumber) (zz : Byte) (s : State) : Result :=
  modifyMemory 2 (bitComputed i false) (.zp zz) s

/-- `SEB i,A` (R129, R77). -/
def execSebA (i : BitNumber) (s : State) : Result :=
  modifyA (bitComputed i true) s

/-- `SEB i,$zz` (R129, R76). -/
def execSebZp (i : BitNumber) (zz : Byte) (s : State) : Result :=
  modifyMemory 2 (bitComputed i true) (.zp zz) s

/-- `CLC` (R130, R69). -/
def execClc (s : State) : Result :=
  changeFlag .c false s

/-- `SEC` (R131, R69). -/
def execSec (s : State) : Result :=
  changeFlag .c true s

/-- `CLD` (R132, R69). -/
def execCld (s : State) : Result :=
  changeFlag .d false s

/-- `SED` (R133, R69). -/
def execSed (s : State) : Result :=
  changeFlag .d true s

/-- `CLI` (R134, R69). -/
def execCli (s : State) : Result :=
  changeFlag .i false s

/-- `SEI` (R135, R69). -/
def execSei (s : State) : Result :=
  changeFlag .i true s

/-- `CLT` (R136, R69). -/
def execClt (s : State) : Result :=
  changeFlag .t false s

/-- `SET` (R137, R69). -/
def execSet (s : State) : Result :=
  changeFlag .t true s

/-- `CLV` (R138, R69). -/
def execClv (s : State) : Result :=
  changeFlag .v false s

end Sys2Proof.Machine
end

