-- ==== Sys2Proof/Machine/Jump.lean ====
section
/-! DEFINITION. The jump, branch and return instructions (spec 46_jump_branch_return.md). -/

namespace Sys2Proof.Machine

/-- `JMP $hhll` (R140, R66). -/
def execJmpAbs (hhll : Word) (s : State) : Result :=
  .next { s with pc := hhll }

/-- `JMP ($hhll)` (R140, R73). -/
def execJmpInd (hhll : Word) (s : State) : Result :=
  proceed (s.indirectTarget hhll) fun pc => { s with pc := pc }

/-- `JMP ($zz)` (R140, R74). -/
def execJmpZpInd (zz : Byte) (s : State) : Result :=
  proceed (s.zeroPagePointer zz) fun pc => { s with pc := pc }

/-- `BRA $hhll` (R141, R70). -/
def execBra (rr : Byte) (s : State) : Result :=
  branchWhen true 2 rr s

/-- `JSR ($zz)` (R142, R74). -/
def execJsrZpInd (zz : Byte) (s : State) : Result :=
  callSubroutine 2 (fun t => t.zeroPagePointer zz) s

/-- `JSR $hhll` (R142, R66). -/
def execJsrAbs (hhll : Word) (s : State) : Result :=
  callSubroutine 3 (fun _ => .ok hhll) s

/-- `JSR ¥$hhll` (R142, R75). -/
def execJsrSp (hhll : Word) (s : State) : Result :=
  callSubroutine 2 (fun _ => .ok (concat 0xFF#8 (lowByte hhll))) s

/-- `BBC i,A,$hhll` (R143, R78). -/
def execBbcA (i : BitNumber) (rr : Byte) (s : State) : Result :=
  branchWhen (!bitOf s.a i.toNat) 2 rr s

/-- `BBC i,$zz,$hhll` (R143, R79). -/
def execBbcZp (i : BitNumber) (zz : Byte) (rr : Byte) (s : State) : Result :=
  branchWhen (!s.testedBit zz i) 3 rr s

/-- `BBS i,A,$hhll` (R144, R78). -/
def execBbsA (i : BitNumber) (rr : Byte) (s : State) : Result :=
  branchWhen (bitOf s.a i.toNat) 2 rr s

/-- `BBS i,$zz,$hhll` (R144, R79). -/
def execBbsZp (i : BitNumber) (zz : Byte) (rr : Byte) (s : State) : Result :=
  branchWhen (s.testedBit zz i) 3 rr s

/-- `BCC $hhll` (R145, R70). -/
def execBcc (rr : Byte) (s : State) : Result :=
  branchWhen (!flag s.ps .c) 2 rr s

/-- `BCS $hhll` (R146, R70). -/
def execBcs (rr : Byte) (s : State) : Result :=
  branchWhen (flag s.ps .c) 2 rr s

/-- `BNE $hhll` (R147, R70). -/
def execBne (rr : Byte) (s : State) : Result :=
  branchWhen (!flag s.ps .z) 2 rr s

/-- `BEQ $hhll` (R148, R70). -/
def execBeq (rr : Byte) (s : State) : Result :=
  branchWhen (flag s.ps .z) 2 rr s

/-- `BPL $hhll` (R149, R70). -/
def execBpl (rr : Byte) (s : State) : Result :=
  branchWhen (!flag s.ps .n) 2 rr s

/-- `BMI $hhll` (R150, R70). -/
def execBmi (rr : Byte) (s : State) : Result :=
  branchWhen (flag s.ps .n) 2 rr s

/-- `BVC $hhll` (R151, R70). -/
def execBvc (rr : Byte) (s : State) : Result :=
  branchWhen (!flag s.ps .v) 2 rr s

/-- `BVS $hhll` (R152, R70). -/
def execBvs (rr : Byte) (s : State) : Result :=
  branchWhen (flag s.ps .v) 2 rr s

/-- `RTI` (R153, R69). -/
def execRti (s : State) : Result :=
  .next s.returnFromException

/-- `RTS` (R154, R69). -/
def execRts (s : State) : Result :=
  let lo := s.pulled .pullFirst
  let s1 := s.afterPull
  let hi := s1.pulled .pullSecond
  .next { s1.afterPull with pc := concat hi lo + 1#16 }

end Sys2Proof.Machine
end

