-- ==== Sys2Proof/Machine/Logic.lean ====
section
/-! DEFINITION. The logic, test and compare instructions (spec 43_logic_compare.md). -/

namespace Sys2Proof.Machine

/-- `AND ($zz,X)` (R112, R71). -/
def execAndIndX (zz : Byte) (s : State) : Result :=
  accumulate 2 andComputed (.mem (.indX zz)) s

/-- `AND $zz` (R112, R63). -/
def execAndZp (zz : Byte) (s : State) : Result :=
  accumulate 2 andComputed (.mem (.zp zz)) s

/-- `AND #$nn` (R112, R61). -/
def execAndImm (nn : Byte) (s : State) : Result :=
  accumulate 2 andComputed (.imm nn) s

/-- `AND $hhll` (R112, R66). -/
def execAndAbs (hhll : Word) (s : State) : Result :=
  accumulate 3 andComputed (.mem (.abs hhll)) s

/-- `AND ($zz),Y` (R112, R72). -/
def execAndIndY (zz : Byte) (s : State) : Result :=
  accumulate 2 andComputed (.mem (.indY zz)) s

/-- `AND $zz,X` (R112, R64). -/
def execAndZpX (zz : Byte) (s : State) : Result :=
  accumulate 2 andComputed (.mem (.zpX zz)) s

/-- `AND $hhll,Y` (R112, R68). -/
def execAndAbsY (hhll : Word) (s : State) : Result :=
  accumulate 3 andComputed (.mem (.absY hhll)) s

/-- `AND $hhll,X` (R112, R67). -/
def execAndAbsX (hhll : Word) (s : State) : Result :=
  accumulate 3 andComputed (.mem (.absX hhll)) s

/-- `ORA ($zz,X)` (R113, R71). -/
def execOraIndX (zz : Byte) (s : State) : Result :=
  accumulate 2 oraComputed (.mem (.indX zz)) s

/-- `ORA $zz` (R113, R63). -/
def execOraZp (zz : Byte) (s : State) : Result :=
  accumulate 2 oraComputed (.mem (.zp zz)) s

/-- `ORA #$nn` (R113, R61). -/
def execOraImm (nn : Byte) (s : State) : Result :=
  accumulate 2 oraComputed (.imm nn) s

/-- `ORA $hhll` (R113, R66). -/
def execOraAbs (hhll : Word) (s : State) : Result :=
  accumulate 3 oraComputed (.mem (.abs hhll)) s

/-- `ORA ($zz),Y` (R113, R72). -/
def execOraIndY (zz : Byte) (s : State) : Result :=
  accumulate 2 oraComputed (.mem (.indY zz)) s

/-- `ORA $zz,X` (R113, R64). -/
def execOraZpX (zz : Byte) (s : State) : Result :=
  accumulate 2 oraComputed (.mem (.zpX zz)) s

/-- `ORA $hhll,Y` (R113, R68). -/
def execOraAbsY (hhll : Word) (s : State) : Result :=
  accumulate 3 oraComputed (.mem (.absY hhll)) s

/-- `ORA $hhll,X` (R113, R67). -/
def execOraAbsX (hhll : Word) (s : State) : Result :=
  accumulate 3 oraComputed (.mem (.absX hhll)) s

/-- `EOR ($zz,X)` (R114, R71). -/
def execEorIndX (zz : Byte) (s : State) : Result :=
  accumulate 2 eorComputed (.mem (.indX zz)) s

/-- `EOR $zz` (R114, R63). -/
def execEorZp (zz : Byte) (s : State) : Result :=
  accumulate 2 eorComputed (.mem (.zp zz)) s

/-- `EOR #$nn` (R114, R61). -/
def execEorImm (nn : Byte) (s : State) : Result :=
  accumulate 2 eorComputed (.imm nn) s

/-- `EOR $hhll` (R114, R66). -/
def execEorAbs (hhll : Word) (s : State) : Result :=
  accumulate 3 eorComputed (.mem (.abs hhll)) s

/-- `EOR ($zz),Y` (R114, R72). -/
def execEorIndY (zz : Byte) (s : State) : Result :=
  accumulate 2 eorComputed (.mem (.indY zz)) s

/-- `EOR $zz,X` (R114, R64). -/
def execEorZpX (zz : Byte) (s : State) : Result :=
  accumulate 2 eorComputed (.mem (.zpX zz)) s

/-- `EOR $hhll,Y` (R114, R68). -/
def execEorAbsY (hhll : Word) (s : State) : Result :=
  accumulate 3 eorComputed (.mem (.absY hhll)) s

/-- `EOR $hhll,X` (R114, R67). -/
def execEorAbsX (hhll : Word) (s : State) : Result :=
  accumulate 3 eorComputed (.mem (.absX hhll)) s

/-- `COM $zz` (R115, R63). -/
def execComZp (zz : Byte) (s : State) : Result :=
  modifyMemory 2 comComputed (.zp zz) s

/-- `BIT $zz` (R116, R63). -/
def execBitZp (zz : Byte) (s : State) : Result :=
  testMemory 2 (fun ps m => bitTestPS ps s.a m) (.zp zz) s

/-- `BIT $hhll` (R116, R66). -/
def execBitAbs (hhll : Word) (s : State) : Result :=
  testMemory 3 (fun ps m => bitTestPS ps s.a m) (.abs hhll) s

/-- `TST $zz` (R117, R63). -/
def execTstZp (zz : Byte) (s : State) : Result :=
  testMemory 2 zeroTestPS (.zp zz) s

/-- `CMP ($zz,X)` (R118, R71). -/
def execCmpIndX (zz : Byte) (s : State) : Result :=
  compareDestination 2 (.mem (.indX zz)) s

/-- `CMP $zz` (R118, R63). -/
def execCmpZp (zz : Byte) (s : State) : Result :=
  compareDestination 2 (.mem (.zp zz)) s

/-- `CMP #$nn` (R118, R61). -/
def execCmpImm (nn : Byte) (s : State) : Result :=
  compareDestination 2 (.imm nn) s

/-- `CMP $hhll` (R118, R66). -/
def execCmpAbs (hhll : Word) (s : State) : Result :=
  compareDestination 3 (.mem (.abs hhll)) s

/-- `CMP ($zz),Y` (R118, R72). -/
def execCmpIndY (zz : Byte) (s : State) : Result :=
  compareDestination 2 (.mem (.indY zz)) s

/-- `CMP $zz,X` (R118, R64). -/
def execCmpZpX (zz : Byte) (s : State) : Result :=
  compareDestination 2 (.mem (.zpX zz)) s

/-- `CMP $hhll,Y` (R118, R68). -/
def execCmpAbsY (hhll : Word) (s : State) : Result :=
  compareDestination 3 (.mem (.absY hhll)) s

/-- `CMP $hhll,X` (R118, R67). -/
def execCmpAbsX (hhll : Word) (s : State) : Result :=
  compareDestination 3 (.mem (.absX hhll)) s

/-- `CPX #$nn` (R119, R61). -/
def execCpxImm (nn : Byte) (s : State) : Result :=
  compareRegister 2 s.x (.imm nn) s

/-- `CPX $zz` (R119, R63). -/
def execCpxZp (zz : Byte) (s : State) : Result :=
  compareRegister 2 s.x (.mem (.zp zz)) s

/-- `CPX $hhll` (R119, R66). -/
def execCpxAbs (hhll : Word) (s : State) : Result :=
  compareRegister 3 s.x (.mem (.abs hhll)) s

/-- `CPY #$nn` (R120, R61). -/
def execCpyImm (nn : Byte) (s : State) : Result :=
  compareRegister 2 s.y (.imm nn) s

/-- `CPY $zz` (R120, R63). -/
def execCpyZp (zz : Byte) (s : State) : Result :=
  compareRegister 2 s.y (.mem (.zp zz)) s

/-- `CPY $hhll` (R120, R66). -/
def execCpyAbs (hhll : Word) (s : State) : Result :=
  compareRegister 3 s.y (.mem (.abs hhll)) s

end Sys2Proof.Machine
end

