-- ==== Sys2Proof/Machine/Shift.lean ====
section
/-! DEFINITION. The shift and rotate instructions (spec 44_shift_rotate.md). -/

namespace Sys2Proof.Machine

/-- `ASL $zz` (R122, R63). -/
def execAslZp (zz : Byte) (s : State) : Result :=
  modifyMemory 2 aslComputed (.zp zz) s

/-- `ASL A` (R122, R62). -/
def execAslA (s : State) : Result :=
  modifyA aslComputed s

/-- `ASL $hhll` (R122, R66). -/
def execAslAbs (hhll : Word) (s : State) : Result :=
  modifyMemory 3 aslComputed (.abs hhll) s

/-- `ASL $zz,X` (R122, R64). -/
def execAslZpX (zz : Byte) (s : State) : Result :=
  modifyMemory 2 aslComputed (.zpX zz) s

/-- `ASL $hhll,X` (R122, R67). -/
def execAslAbsX (hhll : Word) (s : State) : Result :=
  modifyMemory 3 aslComputed (.absX hhll) s

/-- `LSR $zz` (R123, R63). -/
def execLsrZp (zz : Byte) (s : State) : Result :=
  modifyMemory 2 lsrComputed (.zp zz) s

/-- `LSR A` (R123, R62). -/
def execLsrA (s : State) : Result :=
  modifyA lsrComputed s

/-- `LSR $hhll` (R123, R66). -/
def execLsrAbs (hhll : Word) (s : State) : Result :=
  modifyMemory 3 lsrComputed (.abs hhll) s

/-- `LSR $zz,X` (R123, R64). -/
def execLsrZpX (zz : Byte) (s : State) : Result :=
  modifyMemory 2 lsrComputed (.zpX zz) s

/-- `LSR $hhll,X` (R123, R67). -/
def execLsrAbsX (hhll : Word) (s : State) : Result :=
  modifyMemory 3 lsrComputed (.absX hhll) s

/-- `ROL $zz` (R124, R63). -/
def execRolZp (zz : Byte) (s : State) : Result :=
  modifyMemory 2 rolComputed (.zp zz) s

/-- `ROL A` (R124, R62). -/
def execRolA (s : State) : Result :=
  modifyA rolComputed s

/-- `ROL $hhll` (R124, R66). -/
def execRolAbs (hhll : Word) (s : State) : Result :=
  modifyMemory 3 rolComputed (.abs hhll) s

/-- `ROL $zz,X` (R124, R64). -/
def execRolZpX (zz : Byte) (s : State) : Result :=
  modifyMemory 2 rolComputed (.zpX zz) s

/-- `ROL $hhll,X` (R124, R67). -/
def execRolAbsX (hhll : Word) (s : State) : Result :=
  modifyMemory 3 rolComputed (.absX hhll) s

/-- `ROR $zz` (R125, R63). -/
def execRorZp (zz : Byte) (s : State) : Result :=
  modifyMemory 2 rorComputed (.zp zz) s

/-- `ROR A` (R125, R62). -/
def execRorA (s : State) : Result :=
  modifyA rorComputed s

/-- `ROR $hhll` (R125, R66). -/
def execRorAbs (hhll : Word) (s : State) : Result :=
  modifyMemory 3 rorComputed (.abs hhll) s

/-- `ROR $zz,X` (R125, R64). -/
def execRorZpX (zz : Byte) (s : State) : Result :=
  modifyMemory 2 rorComputed (.zpX zz) s

/-- `ROR $hhll,X` (R125, R67). -/
def execRorAbsX (hhll : Word) (s : State) : Result :=
  modifyMemory 3 rorComputed (.absX hhll) s

/-- `RRF $zz` (R126, R63). -/
def execRrfZp (zz : Byte) (s : State) : Result :=
  modifyMemory 2 rrfComputed (.zp zz) s

end Sys2Proof.Machine
end

