-- ==== Sys2Proof/Machine/Special.lean ====
section
/-! DEFINITION. The software interrupt, clock-control and no-operation instructions (spec 47_interrupt_special_other.md). -/

namespace Sys2Proof.Machine

/-- The vector a BRK at this state goes to: that of the highest-priority masked pending source, else the BRK vector
(47_interrupt_special_other.md R157 (c), 60_exceptions.md R177). -/
def State.brkEntry (s : State) : Word :=
  match s.maskedPending with
  | some q => q.vector
  | none => brkVector s.cfg

/-- `BRK` (R157, R69). -/
def execBrk (s : State) : Result :=
  .next (s.enterException (s.pc + 2#16) true none (s.brkEntry))

/-- `WIT` (R158, R69). -/
def execWit (s : State) : Result :=
  whenPresent s.cfg.hasWit "WIT" (.next { s.advance 1 with run := .wait })

/-- `STP` (R159, R69). -/
def execStp (s : State) : Result :=
  .next (if s.cfg.stpValid then { s.advance 1 with run := .stop } else s.advance 1)

/-- `NOP` (R160, R69). -/
def execNop (s : State) : Result :=
  .next (s.advance 1)

end Sys2Proof.Machine
end

