-- ==== Sys2Proof/Machine/Transfer.lean ====
section
/-! DEFINITION. The data transfer instructions (spec 41_data_transfer.md). -/

namespace Sys2Proof.Machine

/-- `LDA ($zz,X)` (R81, R71). -/
def execLdaIndX (zz : Byte) (s : State) : Result :=
  loadDestination 2 (.mem (.indX zz)) s

/-- `LDA $zz` (R81, R63). -/
def execLdaZp (zz : Byte) (s : State) : Result :=
  loadDestination 2 (.mem (.zp zz)) s

/-- `LDA #$nn` (R81, R61). -/
def execLdaImm (nn : Byte) (s : State) : Result :=
  loadDestination 2 (.imm nn) s

/-- `LDA $hhll` (R81, R66). -/
def execLdaAbs (hhll : Word) (s : State) : Result :=
  loadDestination 3 (.mem (.abs hhll)) s

/-- `LDA ($zz),Y` (R81, R72). -/
def execLdaIndY (zz : Byte) (s : State) : Result :=
  loadDestination 2 (.mem (.indY zz)) s

/-- `LDA $zz,X` (R81, R64). -/
def execLdaZpX (zz : Byte) (s : State) : Result :=
  loadDestination 2 (.mem (.zpX zz)) s

/-- `LDA $hhll,Y` (R81, R68). -/
def execLdaAbsY (hhll : Word) (s : State) : Result :=
  loadDestination 3 (.mem (.absY hhll)) s

/-- `LDA $hhll,X` (R81, R67). -/
def execLdaAbsX (hhll : Word) (s : State) : Result :=
  loadDestination 3 (.mem (.absX hhll)) s

/-- `LDM #$nn,$zz` (R82, R63). -/
def execLdm (nn : Byte) (zz : Byte) (s : State) : Result :=
  store 3 nn (.zp zz) s

/-- `LDX #$nn` (R83, R61). -/
def execLdxImm (nn : Byte) (s : State) : Result :=
  loadX 2 (.imm nn) s

/-- `LDX $zz` (R83, R63). -/
def execLdxZp (zz : Byte) (s : State) : Result :=
  loadX 2 (.mem (.zp zz)) s

/-- `LDX $hhll` (R83, R66). -/
def execLdxAbs (hhll : Word) (s : State) : Result :=
  loadX 3 (.mem (.abs hhll)) s

/-- `LDX $zz,Y` (R83, R65). -/
def execLdxZpY (zz : Byte) (s : State) : Result :=
  loadX 2 (.mem (.zpY zz)) s

/-- `LDX $hhll,Y` (R83, R68). -/
def execLdxAbsY (hhll : Word) (s : State) : Result :=
  loadX 3 (.mem (.absY hhll)) s

/-- `LDY #$nn` (R84, R61). -/
def execLdyImm (nn : Byte) (s : State) : Result :=
  loadY 2 (.imm nn) s

/-- `LDY $zz` (R84, R63). -/
def execLdyZp (zz : Byte) (s : State) : Result :=
  loadY 2 (.mem (.zp zz)) s

/-- `LDY $hhll` (R84, R66). -/
def execLdyAbs (hhll : Word) (s : State) : Result :=
  loadY 3 (.mem (.abs hhll)) s

/-- `LDY $zz,X` (R84, R64). -/
def execLdyZpX (zz : Byte) (s : State) : Result :=
  loadY 2 (.mem (.zpX zz)) s

/-- `LDY $hhll,X` (R84, R67). -/
def execLdyAbsX (hhll : Word) (s : State) : Result :=
  loadY 3 (.mem (.absX hhll)) s

/-- `STA ($zz,X)` (R85, R71). -/
def execStaIndX (zz : Byte) (s : State) : Result :=
  store 2 s.a (.indX zz) s

/-- `STA $zz` (R85, R63). -/
def execStaZp (zz : Byte) (s : State) : Result :=
  store 2 s.a (.zp zz) s

/-- `STA $hhll` (R85, R66). -/
def execStaAbs (hhll : Word) (s : State) : Result :=
  store 3 s.a (.abs hhll) s

/-- `STA ($zz),Y` (R85, R72). -/
def execStaIndY (zz : Byte) (s : State) : Result :=
  store 2 s.a (.indY zz) s

/-- `STA $zz,X` (R85, R64). -/
def execStaZpX (zz : Byte) (s : State) : Result :=
  store 2 s.a (.zpX zz) s

/-- `STA $hhll,Y` (R85, R68). -/
def execStaAbsY (hhll : Word) (s : State) : Result :=
  store 3 s.a (.absY hhll) s

/-- `STA $hhll,X` (R85, R67). -/
def execStaAbsX (hhll : Word) (s : State) : Result :=
  store 3 s.a (.absX hhll) s

/-- `STX $zz` (R86, R63). -/
def execStxZp (zz : Byte) (s : State) : Result :=
  store 2 s.x (.zp zz) s

/-- `STX $hhll` (R86, R66). -/
def execStxAbs (hhll : Word) (s : State) : Result :=
  store 3 s.x (.abs hhll) s

/-- `STX $zz,Y` (R86, R65). -/
def execStxZpY (zz : Byte) (s : State) : Result :=
  store 2 s.x (.zpY zz) s

/-- `STY $zz` (R87, R63). -/
def execStyZp (zz : Byte) (s : State) : Result :=
  store 2 s.y (.zp zz) s

/-- `STY $hhll` (R87, R66). -/
def execStyAbs (hhll : Word) (s : State) : Result :=
  store 3 s.y (.abs hhll) s

/-- `STY $zz,X` (R87, R64). -/
def execStyZpX (zz : Byte) (s : State) : Result :=
  store 2 s.y (.zpX zz) s

/-- `TAX` (R88, R69). -/
def execTax (s : State) : Result :=
  .next { s.advance 1 with x := s.a, ps := setNZ s.ps s.a }

/-- `TXA` (R89, R69). -/
def execTxa (s : State) : Result :=
  .next { s.advance 1 with a := s.x, ps := setNZ s.ps s.x }

/-- `TAY` (R90, R69). -/
def execTay (s : State) : Result :=
  .next { s.advance 1 with y := s.a, ps := setNZ s.ps s.a }

/-- `TYA` (R91, R69). -/
def execTya (s : State) : Result :=
  .next { s.advance 1 with a := s.y, ps := setNZ s.ps s.y }

/-- `TSX` (R92, R69). -/
def execTsx (s : State) : Result :=
  .next { s.advance 1 with x := s.sp, ps := setNZ s.ps s.sp }

/-- `TXS` (R93, R69). -/
def execTxs (s : State) : Result :=
  .next { s.advance 1 with sp := s.x }

/-- `PHA` (R94, R69). -/
def execPha (s : State) : Result :=
  .next ((s.advance 1).push s.a)

/-- `PHP` (R95, R69). -/
def execPhp (s : State) : Result :=
  .next ((s.advance 1).push s.ps)

/-- `PLA` (R96, R69). -/
def execPla (s : State) : Result :=
  let v := s.pulled .pullFirst
  .next { (s.advance 1).afterPull with a := v, ps := setNZ s.ps v }

/-- `PLP` (R97, R69). -/
def execPlp (s : State) : Result :=
  .next { (s.advance 1).afterPull with ps := s.pulled .pullFirst }

end Sys2Proof.Machine
end

