-- ==== Sys2Proof/Syntax.lean ====
section
/-! DEFINITION. The instructions: one constructor per row of spec/opcode_table.json, in the table's order (spec
30_encoding.md R50 to R52). Operands are the bytes of R51: `nn` data, `zz` a zero-page address, `hhll` a 16-bit address,
`rr` a displacement byte, `i` a bit number. -/

namespace Sys2Proof

/-- The 71 instructions in all their addressing modes (00_scope.md R2, 30_encoding.md R52). -/
inductive Instr where
  /-- `BRK`, opcode 0x00 (R157, R69). -/
  | brk
  /-- `ORA ($zz,X)`, opcode 0x01 (R113, R71). -/
  | oraIndX (zz : Byte)
  /-- `JSR ($zz)`, opcode 0x02 (R142, R74). -/
  | jsrZpInd (zz : Byte)
  /-- `BBS i,A,$hhll`, opcode 0x20*i + 0x03 (R144, R78). -/
  | bbsA (i : BitNumber) (rr : Byte)
  /-- `ORA $zz`, opcode 0x05 (R113, R63). -/
  | oraZp (zz : Byte)
  /-- `ASL $zz`, opcode 0x06 (R122, R63). -/
  | aslZp (zz : Byte)
  /-- `BBS i,$zz,$hhll`, opcode 0x20*i + 0x07 (R144, R79). -/
  | bbsZp (i : BitNumber) (zz : Byte) (rr : Byte)
  /-- `PHP`, opcode 0x08 (R95, R69). -/
  | php
  /-- `ORA #$nn`, opcode 0x09 (R113, R61). -/
  | oraImm (nn : Byte)
  /-- `ASL A`, opcode 0x0A (R122, R62). -/
  | aslA
  /-- `SEB i,A`, opcode 0x20*i + 0x0B (R129, R77). -/
  | sebA (i : BitNumber)
  /-- `ORA $hhll`, opcode 0x0D (R113, R66). -/
  | oraAbs (hhll : Word)
  /-- `ASL $hhll`, opcode 0x0E (R122, R66). -/
  | aslAbs (hhll : Word)
  /-- `SEB i,$zz`, opcode 0x20*i + 0x0F (R129, R76). -/
  | sebZp (i : BitNumber) (zz : Byte)
  /-- `BPL $hhll`, opcode 0x10 (R149, R70). -/
  | bpl (rr : Byte)
  /-- `ORA ($zz),Y`, opcode 0x11 (R113, R72). -/
  | oraIndY (zz : Byte)
  /-- `CLT`, opcode 0x12 (R136, R69). -/
  | clt
  /-- `BBC i,A,$hhll`, opcode 0x20*i + 0x13 (R143, R78). -/
  | bbcA (i : BitNumber) (rr : Byte)
  /-- `ORA $zz,X`, opcode 0x15 (R113, R64). -/
  | oraZpX (zz : Byte)
  /-- `ASL $zz,X`, opcode 0x16 (R122, R64). -/
  | aslZpX (zz : Byte)
  /-- `BBC i,$zz,$hhll`, opcode 0x20*i + 0x17 (R143, R79). -/
  | bbcZp (i : BitNumber) (zz : Byte) (rr : Byte)
  /-- `CLC`, opcode 0x18 (R130, R69). -/
  | clc
  /-- `ORA $hhll,Y`, opcode 0x19 (R113, R68). -/
  | oraAbsY (hhll : Word)
  /-- `DEC A`, opcode 0x1A (R103, R62). -/
  | decA
  /-- `CLB i,A`, opcode 0x20*i + 0x1B (R128, R77). -/
  | clbA (i : BitNumber)
  /-- `ORA $hhll,X`, opcode 0x1D (R113, R67). -/
  | oraAbsX (hhll : Word)
  /-- `ASL $hhll,X`, opcode 0x1E (R122, R67). -/
  | aslAbsX (hhll : Word)
  /-- `CLB i,$zz`, opcode 0x20*i + 0x1F (R128, R76). -/
  | clbZp (i : BitNumber) (zz : Byte)
  /-- `JSR $hhll`, opcode 0x20 (R142, R66). -/
  | jsrAbs (hhll : Word)
  /-- `AND ($zz,X)`, opcode 0x21 (R112, R71). -/
  | andIndX (zz : Byte)
  /-- `JSR ¥$hhll`, opcode 0x22 (R142, R75). -/
  | jsrSp (hhll : Word)
  /-- `BIT $zz`, opcode 0x24 (R116, R63). -/
  | bitZp (zz : Byte)
  /-- `AND $zz`, opcode 0x25 (R112, R63). -/
  | andZp (zz : Byte)
  /-- `ROL $zz`, opcode 0x26 (R124, R63). -/
  | rolZp (zz : Byte)
  /-- `PLP`, opcode 0x28 (R97, R69). -/
  | plp
  /-- `AND #$nn`, opcode 0x29 (R112, R61). -/
  | andImm (nn : Byte)
  /-- `ROL A`, opcode 0x2A (R124, R62). -/
  | rolA
  /-- `BIT $hhll`, opcode 0x2C (R116, R66). -/
  | bitAbs (hhll : Word)
  /-- `AND $hhll`, opcode 0x2D (R112, R66). -/
  | andAbs (hhll : Word)
  /-- `ROL $hhll`, opcode 0x2E (R124, R66). -/
  | rolAbs (hhll : Word)
  /-- `BMI $hhll`, opcode 0x30 (R150, R70). -/
  | bmi (rr : Byte)
  /-- `AND ($zz),Y`, opcode 0x31 (R112, R72). -/
  | andIndY (zz : Byte)
  /-- `SET`, opcode 0x32 (R137, R69). -/
  | set
  /-- `AND $zz,X`, opcode 0x35 (R112, R64). -/
  | andZpX (zz : Byte)
  /-- `ROL $zz,X`, opcode 0x36 (R124, R64). -/
  | rolZpX (zz : Byte)
  /-- `SEC`, opcode 0x38 (R131, R69). -/
  | sec
  /-- `AND $hhll,Y`, opcode 0x39 (R112, R68). -/
  | andAbsY (hhll : Word)
  /-- `INC A`, opcode 0x3A (R102, R62). -/
  | incA
  /-- `LDM #$nn,$zz`, opcode 0x3C (R82, R63). -/
  | ldm (nn : Byte) (zz : Byte)
  /-- `AND $hhll,X`, opcode 0x3D (R112, R67). -/
  | andAbsX (hhll : Word)
  /-- `ROL $hhll,X`, opcode 0x3E (R124, R67). -/
  | rolAbsX (hhll : Word)
  /-- `RTI`, opcode 0x40 (R153, R69). -/
  | rti
  /-- `EOR ($zz,X)`, opcode 0x41 (R114, R71). -/
  | eorIndX (zz : Byte)
  /-- `STP`, opcode 0x42 (R159, R69). -/
  | stp
  /-- `COM $zz`, opcode 0x44 (R115, R63). -/
  | comZp (zz : Byte)
  /-- `EOR $zz`, opcode 0x45 (R114, R63). -/
  | eorZp (zz : Byte)
  /-- `LSR $zz`, opcode 0x46 (R123, R63). -/
  | lsrZp (zz : Byte)
  /-- `PHA`, opcode 0x48 (R94, R69). -/
  | pha
  /-- `EOR #$nn`, opcode 0x49 (R114, R61). -/
  | eorImm (nn : Byte)
  /-- `LSR A`, opcode 0x4A (R123, R62). -/
  | lsrA
  /-- `JMP $hhll`, opcode 0x4C (R140, R66). -/
  | jmpAbs (hhll : Word)
  /-- `EOR $hhll`, opcode 0x4D (R114, R66). -/
  | eorAbs (hhll : Word)
  /-- `LSR $hhll`, opcode 0x4E (R123, R66). -/
  | lsrAbs (hhll : Word)
  /-- `BVC $hhll`, opcode 0x50 (R151, R70). -/
  | bvc (rr : Byte)
  /-- `EOR ($zz),Y`, opcode 0x51 (R114, R72). -/
  | eorIndY (zz : Byte)
  /-- `EOR $zz,X`, opcode 0x55 (R114, R64). -/
  | eorZpX (zz : Byte)
  /-- `LSR $zz,X`, opcode 0x56 (R123, R64). -/
  | lsrZpX (zz : Byte)
  /-- `CLI`, opcode 0x58 (R134, R69). -/
  | cli
  /-- `EOR $hhll,Y`, opcode 0x59 (R114, R68). -/
  | eorAbsY (hhll : Word)
  /-- `EOR $hhll,X`, opcode 0x5D (R114, R67). -/
  | eorAbsX (hhll : Word)
  /-- `LSR $hhll,X`, opcode 0x5E (R123, R67). -/
  | lsrAbsX (hhll : Word)
  /-- `RTS`, opcode 0x60 (R154, R69). -/
  | rts
  /-- `ADC ($zz,X)`, opcode 0x61 (R100, R71). -/
  | adcIndX (zz : Byte)
  /-- `MUL $zz,X`, opcode 0x62 (R108, R64). -/
  | mulZpX (zz : Byte)
  /-- `TST $zz`, opcode 0x64 (R117, R63). -/
  | tstZp (zz : Byte)
  /-- `ADC $zz`, opcode 0x65 (R100, R63). -/
  | adcZp (zz : Byte)
  /-- `ROR $zz`, opcode 0x66 (R125, R63). -/
  | rorZp (zz : Byte)
  /-- `PLA`, opcode 0x68 (R96, R69). -/
  | pla
  /-- `ADC #$nn`, opcode 0x69 (R100, R61). -/
  | adcImm (nn : Byte)
  /-- `ROR A`, opcode 0x6A (R125, R62). -/
  | rorA
  /-- `JMP ($hhll)`, opcode 0x6C (R140, R73). -/
  | jmpInd (hhll : Word)
  /-- `ADC $hhll`, opcode 0x6D (R100, R66). -/
  | adcAbs (hhll : Word)
  /-- `ROR $hhll`, opcode 0x6E (R125, R66). -/
  | rorAbs (hhll : Word)
  /-- `BVS $hhll`, opcode 0x70 (R152, R70). -/
  | bvs (rr : Byte)
  /-- `ADC ($zz),Y`, opcode 0x71 (R100, R72). -/
  | adcIndY (zz : Byte)
  /-- `ADC $zz,X`, opcode 0x75 (R100, R64). -/
  | adcZpX (zz : Byte)
  /-- `ROR $zz,X`, opcode 0x76 (R125, R64). -/
  | rorZpX (zz : Byte)
  /-- `SEI`, opcode 0x78 (R135, R69). -/
  | sei
  /-- `ADC $hhll,Y`, opcode 0x79 (R100, R68). -/
  | adcAbsY (hhll : Word)
  /-- `ADC $hhll,X`, opcode 0x7D (R100, R67). -/
  | adcAbsX (hhll : Word)
  /-- `ROR $hhll,X`, opcode 0x7E (R125, R67). -/
  | rorAbsX (hhll : Word)
  /-- `BRA $hhll`, opcode 0x80 (R141, R70). -/
  | bra (rr : Byte)
  /-- `STA ($zz,X)`, opcode 0x81 (R85, R71). -/
  | staIndX (zz : Byte)
  /-- `RRF $zz`, opcode 0x82 (R126, R63). -/
  | rrfZp (zz : Byte)
  /-- `STY $zz`, opcode 0x84 (R87, R63). -/
  | styZp (zz : Byte)
  /-- `STA $zz`, opcode 0x85 (R85, R63). -/
  | staZp (zz : Byte)
  /-- `STX $zz`, opcode 0x86 (R86, R63). -/
  | stxZp (zz : Byte)
  /-- `DEY`, opcode 0x88 (R107, R69). -/
  | dey
  /-- `TXA`, opcode 0x8A (R89, R69). -/
  | txa
  /-- `STY $hhll`, opcode 0x8C (R87, R66). -/
  | styAbs (hhll : Word)
  /-- `STA $hhll`, opcode 0x8D (R85, R66). -/
  | staAbs (hhll : Word)
  /-- `STX $hhll`, opcode 0x8E (R86, R66). -/
  | stxAbs (hhll : Word)
  /-- `BCC $hhll`, opcode 0x90 (R145, R70). -/
  | bcc (rr : Byte)
  /-- `STA ($zz),Y`, opcode 0x91 (R85, R72). -/
  | staIndY (zz : Byte)
  /-- `STY $zz,X`, opcode 0x94 (R87, R64). -/
  | styZpX (zz : Byte)
  /-- `STA $zz,X`, opcode 0x95 (R85, R64). -/
  | staZpX (zz : Byte)
  /-- `STX $zz,Y`, opcode 0x96 (R86, R65). -/
  | stxZpY (zz : Byte)
  /-- `TYA`, opcode 0x98 (R91, R69). -/
  | tya
  /-- `STA $hhll,Y`, opcode 0x99 (R85, R68). -/
  | staAbsY (hhll : Word)
  /-- `TXS`, opcode 0x9A (R93, R69). -/
  | txs
  /-- `STA $hhll,X`, opcode 0x9D (R85, R67). -/
  | staAbsX (hhll : Word)
  /-- `LDY #$nn`, opcode 0xA0 (R84, R61). -/
  | ldyImm (nn : Byte)
  /-- `LDA ($zz,X)`, opcode 0xA1 (R81, R71). -/
  | ldaIndX (zz : Byte)
  /-- `LDX #$nn`, opcode 0xA2 (R83, R61). -/
  | ldxImm (nn : Byte)
  /-- `LDY $zz`, opcode 0xA4 (R84, R63). -/
  | ldyZp (zz : Byte)
  /-- `LDA $zz`, opcode 0xA5 (R81, R63). -/
  | ldaZp (zz : Byte)
  /-- `LDX $zz`, opcode 0xA6 (R83, R63). -/
  | ldxZp (zz : Byte)
  /-- `TAY`, opcode 0xA8 (R90, R69). -/
  | tay
  /-- `LDA #$nn`, opcode 0xA9 (R81, R61). -/
  | ldaImm (nn : Byte)
  /-- `TAX`, opcode 0xAA (R88, R69). -/
  | tax
  /-- `LDY $hhll`, opcode 0xAC (R84, R66). -/
  | ldyAbs (hhll : Word)
  /-- `LDA $hhll`, opcode 0xAD (R81, R66). -/
  | ldaAbs (hhll : Word)
  /-- `LDX $hhll`, opcode 0xAE (R83, R66). -/
  | ldxAbs (hhll : Word)
  /-- `BCS $hhll`, opcode 0xB0 (R146, R70). -/
  | bcs (rr : Byte)
  /-- `LDA ($zz),Y`, opcode 0xB1 (R81, R72). -/
  | ldaIndY (zz : Byte)
  /-- `JMP ($zz)`, opcode 0xB2 (R140, R74). -/
  | jmpZpInd (zz : Byte)
  /-- `LDY $zz,X`, opcode 0xB4 (R84, R64). -/
  | ldyZpX (zz : Byte)
  /-- `LDA $zz,X`, opcode 0xB5 (R81, R64). -/
  | ldaZpX (zz : Byte)
  /-- `LDX $zz,Y`, opcode 0xB6 (R83, R65). -/
  | ldxZpY (zz : Byte)
  /-- `CLV`, opcode 0xB8 (R138, R69). -/
  | clv
  /-- `LDA $hhll,Y`, opcode 0xB9 (R81, R68). -/
  | ldaAbsY (hhll : Word)
  /-- `TSX`, opcode 0xBA (R92, R69). -/
  | tsx
  /-- `LDY $hhll,X`, opcode 0xBC (R84, R67). -/
  | ldyAbsX (hhll : Word)
  /-- `LDA $hhll,X`, opcode 0xBD (R81, R67). -/
  | ldaAbsX (hhll : Word)
  /-- `LDX $hhll,Y`, opcode 0xBE (R83, R68). -/
  | ldxAbsY (hhll : Word)
  /-- `CPY #$nn`, opcode 0xC0 (R120, R61). -/
  | cpyImm (nn : Byte)
  /-- `CMP ($zz,X)`, opcode 0xC1 (R118, R71). -/
  | cmpIndX (zz : Byte)
  /-- `WIT`, opcode 0xC2 (R158, R69). -/
  | wit
  /-- `CPY $zz`, opcode 0xC4 (R120, R63). -/
  | cpyZp (zz : Byte)
  /-- `CMP $zz`, opcode 0xC5 (R118, R63). -/
  | cmpZp (zz : Byte)
  /-- `DEC $zz`, opcode 0xC6 (R103, R63). -/
  | decZp (zz : Byte)
  /-- `INY`, opcode 0xC8 (R106, R69). -/
  | iny
  /-- `CMP #$nn`, opcode 0xC9 (R118, R61). -/
  | cmpImm (nn : Byte)
  /-- `DEX`, opcode 0xCA (R105, R69). -/
  | dex
  /-- `CPY $hhll`, opcode 0xCC (R120, R66). -/
  | cpyAbs (hhll : Word)
  /-- `CMP $hhll`, opcode 0xCD (R118, R66). -/
  | cmpAbs (hhll : Word)
  /-- `DEC $hhll`, opcode 0xCE (R103, R66). -/
  | decAbs (hhll : Word)
  /-- `BNE $hhll`, opcode 0xD0 (R147, R70). -/
  | bne (rr : Byte)
  /-- `CMP ($zz),Y`, opcode 0xD1 (R118, R72). -/
  | cmpIndY (zz : Byte)
  /-- `CMP $zz,X`, opcode 0xD5 (R118, R64). -/
  | cmpZpX (zz : Byte)
  /-- `DEC $zz,X`, opcode 0xD6 (R103, R64). -/
  | decZpX (zz : Byte)
  /-- `CLD`, opcode 0xD8 (R132, R69). -/
  | cld
  /-- `CMP $hhll,Y`, opcode 0xD9 (R118, R68). -/
  | cmpAbsY (hhll : Word)
  /-- `CMP $hhll,X`, opcode 0xDD (R118, R67). -/
  | cmpAbsX (hhll : Word)
  /-- `DEC $hhll,X`, opcode 0xDE (R103, R67). -/
  | decAbsX (hhll : Word)
  /-- `CPX #$nn`, opcode 0xE0 (R119, R61). -/
  | cpxImm (nn : Byte)
  /-- `SBC ($zz,X)`, opcode 0xE1 (R101, R71). -/
  | sbcIndX (zz : Byte)
  /-- `DIV $zz,X`, opcode 0xE2 (R109, R64). -/
  | divZpX (zz : Byte)
  /-- `CPX $zz`, opcode 0xE4 (R119, R63). -/
  | cpxZp (zz : Byte)
  /-- `SBC $zz`, opcode 0xE5 (R101, R63). -/
  | sbcZp (zz : Byte)
  /-- `INC $zz`, opcode 0xE6 (R102, R63). -/
  | incZp (zz : Byte)
  /-- `INX`, opcode 0xE8 (R104, R69). -/
  | inx
  /-- `SBC #$nn`, opcode 0xE9 (R101, R61). -/
  | sbcImm (nn : Byte)
  /-- `NOP`, opcode 0xEA (R160, R69). -/
  | nop
  /-- `CPX $hhll`, opcode 0xEC (R119, R66). -/
  | cpxAbs (hhll : Word)
  /-- `SBC $hhll`, opcode 0xED (R101, R66). -/
  | sbcAbs (hhll : Word)
  /-- `INC $hhll`, opcode 0xEE (R102, R66). -/
  | incAbs (hhll : Word)
  /-- `BEQ $hhll`, opcode 0xF0 (R148, R70). -/
  | beq (rr : Byte)
  /-- `SBC ($zz),Y`, opcode 0xF1 (R101, R72). -/
  | sbcIndY (zz : Byte)
  /-- `SBC $zz,X`, opcode 0xF5 (R101, R64). -/
  | sbcZpX (zz : Byte)
  /-- `INC $zz,X`, opcode 0xF6 (R102, R64). -/
  | incZpX (zz : Byte)
  /-- `SED`, opcode 0xF8 (R133, R69). -/
  | sed
  /-- `SBC $hhll,Y`, opcode 0xF9 (R101, R68). -/
  | sbcAbsY (hhll : Word)
  /-- `SBC $hhll,X`, opcode 0xFD (R101, R67). -/
  | sbcAbsX (hhll : Word)
  /-- `INC $hhll,X`, opcode 0xFE (R102, R67). -/
  | incAbsX (hhll : Word)
  deriving DecidableEq, Repr

end Sys2Proof
end

