-- ==== Sys2Proof/Machine/Dispatch.lean ====
section
/-! DEFINITION. One arm per instruction, in the order of spec/opcode_table.json. -/

namespace Sys2Proof.Machine

open Sys2Proof

def exec (i : Instr) (s : State) : Host.Outcome State Fault Refusal :=
  match i with
  | .brk => Sys2Proof.Machine.execBrk s
  | .oraIndX zz => Sys2Proof.Machine.execOraIndX zz s
  | .jsrZpInd zz => Sys2Proof.Machine.execJsrZpInd zz s
  | .bbsA k rr => Sys2Proof.Machine.execBbsA k rr s
  | .oraZp zz => Sys2Proof.Machine.execOraZp zz s
  | .aslZp zz => Sys2Proof.Machine.execAslZp zz s
  | .bbsZp k zz rr => Sys2Proof.Machine.execBbsZp k zz rr s
  | .php => Sys2Proof.Machine.execPhp s
  | .oraImm nn => Sys2Proof.Machine.execOraImm nn s
  | .aslA => Sys2Proof.Machine.execAslA s
  | .sebA k => Sys2Proof.Machine.execSebA k s
  | .oraAbs hhll => Sys2Proof.Machine.execOraAbs hhll s
  | .aslAbs hhll => Sys2Proof.Machine.execAslAbs hhll s
  | .sebZp k zz => Sys2Proof.Machine.execSebZp k zz s
  | .bpl rr => Sys2Proof.Machine.execBpl rr s
  | .oraIndY zz => Sys2Proof.Machine.execOraIndY zz s
  | .clt => Sys2Proof.Machine.execClt s
  | .bbcA k rr => Sys2Proof.Machine.execBbcA k rr s
  | .oraZpX zz => Sys2Proof.Machine.execOraZpX zz s
  | .aslZpX zz => Sys2Proof.Machine.execAslZpX zz s
  | .bbcZp k zz rr => Sys2Proof.Machine.execBbcZp k zz rr s
  | .clc => Sys2Proof.Machine.execClc s
  | .oraAbsY hhll => Sys2Proof.Machine.execOraAbsY hhll s
  | .decA => Sys2Proof.Machine.execDecA s
  | .clbA k => Sys2Proof.Machine.execClbA k s
  | .oraAbsX hhll => Sys2Proof.Machine.execOraAbsX hhll s
  | .aslAbsX hhll => Sys2Proof.Machine.execAslAbsX hhll s
  | .clbZp k zz => Sys2Proof.Machine.execClbZp k zz s
  | .jsrAbs hhll => Sys2Proof.Machine.execJsrAbs hhll s
  | .andIndX zz => Sys2Proof.Machine.execAndIndX zz s
  | .jsrSp hhll => Sys2Proof.Machine.execJsrSp hhll s
  | .bitZp zz => Sys2Proof.Machine.execBitZp zz s
  | .andZp zz => Sys2Proof.Machine.execAndZp zz s
  | .rolZp zz => Sys2Proof.Machine.execRolZp zz s
  | .plp => Sys2Proof.Machine.execPlp s
  | .andImm nn => Sys2Proof.Machine.execAndImm nn s
  | .rolA => Sys2Proof.Machine.execRolA s
  | .bitAbs hhll => Sys2Proof.Machine.execBitAbs hhll s
  | .andAbs hhll => Sys2Proof.Machine.execAndAbs hhll s
  | .rolAbs hhll => Sys2Proof.Machine.execRolAbs hhll s
  | .bmi rr => Sys2Proof.Machine.execBmi rr s
  | .andIndY zz => Sys2Proof.Machine.execAndIndY zz s
  | .set => Sys2Proof.Machine.execSet s
  | .andZpX zz => Sys2Proof.Machine.execAndZpX zz s
  | .rolZpX zz => Sys2Proof.Machine.execRolZpX zz s
  | .sec => Sys2Proof.Machine.execSec s
  | .andAbsY hhll => Sys2Proof.Machine.execAndAbsY hhll s
  | .incA => Sys2Proof.Machine.execIncA s
  | .ldm nn zz => Sys2Proof.Machine.execLdm nn zz s
  | .andAbsX hhll => Sys2Proof.Machine.execAndAbsX hhll s
  | .rolAbsX hhll => Sys2Proof.Machine.execRolAbsX hhll s
  | .rti => Sys2Proof.Machine.execRti s
  | .eorIndX zz => Sys2Proof.Machine.execEorIndX zz s
  | .stp => Sys2Proof.Machine.execStp s
  | .comZp zz => Sys2Proof.Machine.execComZp zz s
  | .eorZp zz => Sys2Proof.Machine.execEorZp zz s
  | .lsrZp zz => Sys2Proof.Machine.execLsrZp zz s
  | .pha => Sys2Proof.Machine.execPha s
  | .eorImm nn => Sys2Proof.Machine.execEorImm nn s
  | .lsrA => Sys2Proof.Machine.execLsrA s
  | .jmpAbs hhll => Sys2Proof.Machine.execJmpAbs hhll s
  | .eorAbs hhll => Sys2Proof.Machine.execEorAbs hhll s
  | .lsrAbs hhll => Sys2Proof.Machine.execLsrAbs hhll s
  | .bvc rr => Sys2Proof.Machine.execBvc rr s
  | .eorIndY zz => Sys2Proof.Machine.execEorIndY zz s
  | .eorZpX zz => Sys2Proof.Machine.execEorZpX zz s
  | .lsrZpX zz => Sys2Proof.Machine.execLsrZpX zz s
  | .cli => Sys2Proof.Machine.execCli s
  | .eorAbsY hhll => Sys2Proof.Machine.execEorAbsY hhll s
  | .eorAbsX hhll => Sys2Proof.Machine.execEorAbsX hhll s
  | .lsrAbsX hhll => Sys2Proof.Machine.execLsrAbsX hhll s
  | .rts => Sys2Proof.Machine.execRts s
  | .adcIndX zz => Sys2Proof.Machine.execAdcIndX zz s
  | .mulZpX zz => Sys2Proof.Machine.execMulZpX zz s
  | .tstZp zz => Sys2Proof.Machine.execTstZp zz s
  | .adcZp zz => Sys2Proof.Machine.execAdcZp zz s
  | .rorZp zz => Sys2Proof.Machine.execRorZp zz s
  | .pla => Sys2Proof.Machine.execPla s
  | .adcImm nn => Sys2Proof.Machine.execAdcImm nn s
  | .rorA => Sys2Proof.Machine.execRorA s
  | .jmpInd hhll => Sys2Proof.Machine.execJmpInd hhll s
  | .adcAbs hhll => Sys2Proof.Machine.execAdcAbs hhll s
  | .rorAbs hhll => Sys2Proof.Machine.execRorAbs hhll s
  | .bvs rr => Sys2Proof.Machine.execBvs rr s
  | .adcIndY zz => Sys2Proof.Machine.execAdcIndY zz s
  | .adcZpX zz => Sys2Proof.Machine.execAdcZpX zz s
  | .rorZpX zz => Sys2Proof.Machine.execRorZpX zz s
  | .sei => Sys2Proof.Machine.execSei s
  | .adcAbsY hhll => Sys2Proof.Machine.execAdcAbsY hhll s
  | .adcAbsX hhll => Sys2Proof.Machine.execAdcAbsX hhll s
  | .rorAbsX hhll => Sys2Proof.Machine.execRorAbsX hhll s
  | .bra rr => Sys2Proof.Machine.execBra rr s
  | .staIndX zz => Sys2Proof.Machine.execStaIndX zz s
  | .rrfZp zz => Sys2Proof.Machine.execRrfZp zz s
  | .styZp zz => Sys2Proof.Machine.execStyZp zz s
  | .staZp zz => Sys2Proof.Machine.execStaZp zz s
  | .stxZp zz => Sys2Proof.Machine.execStxZp zz s
  | .dey => Sys2Proof.Machine.execDey s
  | .txa => Sys2Proof.Machine.execTxa s
  | .styAbs hhll => Sys2Proof.Machine.execStyAbs hhll s
  | .staAbs hhll => Sys2Proof.Machine.execStaAbs hhll s
  | .stxAbs hhll => Sys2Proof.Machine.execStxAbs hhll s
  | .bcc rr => Sys2Proof.Machine.execBcc rr s
  | .staIndY zz => Sys2Proof.Machine.execStaIndY zz s
  | .styZpX zz => Sys2Proof.Machine.execStyZpX zz s
  | .staZpX zz => Sys2Proof.Machine.execStaZpX zz s
  | .stxZpY zz => Sys2Proof.Machine.execStxZpY zz s
  | .tya => Sys2Proof.Machine.execTya s
  | .staAbsY hhll => Sys2Proof.Machine.execStaAbsY hhll s
  | .txs => Sys2Proof.Machine.execTxs s
  | .staAbsX hhll => Sys2Proof.Machine.execStaAbsX hhll s
  | .ldyImm nn => Sys2Proof.Machine.execLdyImm nn s
  | .ldaIndX zz => Sys2Proof.Machine.execLdaIndX zz s
  | .ldxImm nn => Sys2Proof.Machine.execLdxImm nn s
  | .ldyZp zz => Sys2Proof.Machine.execLdyZp zz s
  | .ldaZp zz => Sys2Proof.Machine.execLdaZp zz s
  | .ldxZp zz => Sys2Proof.Machine.execLdxZp zz s
  | .tay => Sys2Proof.Machine.execTay s
  | .ldaImm nn => Sys2Proof.Machine.execLdaImm nn s
  | .tax => Sys2Proof.Machine.execTax s
  | .ldyAbs hhll => Sys2Proof.Machine.execLdyAbs hhll s
  | .ldaAbs hhll => Sys2Proof.Machine.execLdaAbs hhll s
  | .ldxAbs hhll => Sys2Proof.Machine.execLdxAbs hhll s
  | .bcs rr => Sys2Proof.Machine.execBcs rr s
  | .ldaIndY zz => Sys2Proof.Machine.execLdaIndY zz s
  | .jmpZpInd zz => Sys2Proof.Machine.execJmpZpInd zz s
  | .ldyZpX zz => Sys2Proof.Machine.execLdyZpX zz s
  | .ldaZpX zz => Sys2Proof.Machine.execLdaZpX zz s
  | .ldxZpY zz => Sys2Proof.Machine.execLdxZpY zz s
  | .clv => Sys2Proof.Machine.execClv s
  | .ldaAbsY hhll => Sys2Proof.Machine.execLdaAbsY hhll s
  | .tsx => Sys2Proof.Machine.execTsx s
  | .ldyAbsX hhll => Sys2Proof.Machine.execLdyAbsX hhll s
  | .ldaAbsX hhll => Sys2Proof.Machine.execLdaAbsX hhll s
  | .ldxAbsY hhll => Sys2Proof.Machine.execLdxAbsY hhll s
  | .cpyImm nn => Sys2Proof.Machine.execCpyImm nn s
  | .cmpIndX zz => Sys2Proof.Machine.execCmpIndX zz s
  | .wit => Sys2Proof.Machine.execWit s
  | .cpyZp zz => Sys2Proof.Machine.execCpyZp zz s
  | .cmpZp zz => Sys2Proof.Machine.execCmpZp zz s
  | .decZp zz => Sys2Proof.Machine.execDecZp zz s
  | .iny => Sys2Proof.Machine.execIny s
  | .cmpImm nn => Sys2Proof.Machine.execCmpImm nn s
  | .dex => Sys2Proof.Machine.execDex s
  | .cpyAbs hhll => Sys2Proof.Machine.execCpyAbs hhll s
  | .cmpAbs hhll => Sys2Proof.Machine.execCmpAbs hhll s
  | .decAbs hhll => Sys2Proof.Machine.execDecAbs hhll s
  | .bne rr => Sys2Proof.Machine.execBne rr s
  | .cmpIndY zz => Sys2Proof.Machine.execCmpIndY zz s
  | .cmpZpX zz => Sys2Proof.Machine.execCmpZpX zz s
  | .decZpX zz => Sys2Proof.Machine.execDecZpX zz s
  | .cld => Sys2Proof.Machine.execCld s
  | .cmpAbsY hhll => Sys2Proof.Machine.execCmpAbsY hhll s
  | .cmpAbsX hhll => Sys2Proof.Machine.execCmpAbsX hhll s
  | .decAbsX hhll => Sys2Proof.Machine.execDecAbsX hhll s
  | .cpxImm nn => Sys2Proof.Machine.execCpxImm nn s
  | .sbcIndX zz => Sys2Proof.Machine.execSbcIndX zz s
  | .divZpX zz => Sys2Proof.Machine.execDivZpX zz s
  | .cpxZp zz => Sys2Proof.Machine.execCpxZp zz s
  | .sbcZp zz => Sys2Proof.Machine.execSbcZp zz s
  | .incZp zz => Sys2Proof.Machine.execIncZp zz s
  | .inx => Sys2Proof.Machine.execInx s
  | .sbcImm nn => Sys2Proof.Machine.execSbcImm nn s
  | .nop => Sys2Proof.Machine.execNop s
  | .cpxAbs hhll => Sys2Proof.Machine.execCpxAbs hhll s
  | .sbcAbs hhll => Sys2Proof.Machine.execSbcAbs hhll s
  | .incAbs hhll => Sys2Proof.Machine.execIncAbs hhll s
  | .beq rr => Sys2Proof.Machine.execBeq rr s
  | .sbcIndY zz => Sys2Proof.Machine.execSbcIndY zz s
  | .sbcZpX zz => Sys2Proof.Machine.execSbcZpX zz s
  | .incZpX zz => Sys2Proof.Machine.execIncZpX zz s
  | .sed => Sys2Proof.Machine.execSed s
  | .sbcAbsY hhll => Sys2Proof.Machine.execSbcAbsY hhll s
  | .sbcAbsX hhll => Sys2Proof.Machine.execSbcAbsX hhll s
  | .incAbsX hhll => Sys2Proof.Machine.execIncAbsX hhll s

end Sys2Proof.Machine
end

