-- ==== Sys2Proof/WellFormed.lean ====
section
/-! DEFINITION. Which instructions an assembler may write: the two operand restrictions the spec states (30_encoding.md R56,
20_memory.md R49). Every other operand is any value of its width. -/

namespace Sys2Proof

/-- An instruction whose operands the spec allows. `JSR ¥$hhll`: "in special page mode hh must be FF" (20_memory.md R32,
40_addressing_modes.md R75). `JMP ($hhll)`: "the last address of a page (address 0xXXFF) cannot be specified as the indirect
address" (20_memory.md R49, 70_reset_and_hazards.md R197). -/
def Instr.wellFormed : Instr → Bool
  | .jsrSp hhll => highByte hhll == 0xFF#8
  | .jmpInd hhll => lowByte hhll != 0xFF#8
  | _ => true

end Sys2Proof
end

