-- ==== Sys2Proof/Decode.lean ====
section
/-! DEFINITION. Decoding and encoding (spec 30_encoding.md R50 to R55). An opcode byte is read as its upper three bits `hi`
and its lower five bits, one function for each column of the lower five bits (R53); in the bit instructions `hi` is the bit
number. Decoding is total: the 25 undefined opcodes (R54) and a cut-off instruction are rejected by name. -/

namespace Sys2Proof

/-- Why bytes decode to no instruction. -/
inductive DecodeError where
  /-- No byte at all. -/
  | noBytes
  /-- The opcode byte has no instruction (30_encoding.md R54). -/
  | undefinedOpcode (opcode : Byte)
  /-- Fewer operand bytes than the opcode needs (R50). -/
  | missingOperand (opcode : Byte)
  deriving DecidableEq, Repr

/-- Opcodes whose lower five bits are 0x00 (30_encoding.md R52). -/
def decodeColumn00 (hi : BitNumber) (b1 b2 : Byte) : Option Instr :=
  match hi with
  | 0x0#3 => some .brk
  | 0x1#3 => some (.jsrAbs (concat b2 b1))
  | 0x2#3 => some .rti
  | 0x3#3 => some .rts
  | 0x4#3 => some (.bra b1)
  | 0x5#3 => some (.ldyImm b1)
  | 0x6#3 => some (.cpyImm b1)
  | 0x7#3 => some (.cpxImm b1)

/-- Opcodes whose lower five bits are 0x01 (30_encoding.md R52). -/
def decodeColumn01 (hi : BitNumber) (b1 : Byte) : Option Instr :=
  match hi with
  | 0x0#3 => some (.oraIndX b1)
  | 0x1#3 => some (.andIndX b1)
  | 0x2#3 => some (.eorIndX b1)
  | 0x3#3 => some (.adcIndX b1)
  | 0x4#3 => some (.staIndX b1)
  | 0x5#3 => some (.ldaIndX b1)
  | 0x6#3 => some (.cmpIndX b1)
  | 0x7#3 => some (.sbcIndX b1)

/-- Opcodes whose lower five bits are 0x02 (30_encoding.md R52). -/
def decodeColumn02 (hi : BitNumber) (b1 : Byte) : Option Instr :=
  match hi with
  | 0x0#3 => some (.jsrZpInd b1)
  | 0x1#3 => some (.jsrSp (concat 0xFF#8 b1))
  | 0x2#3 => some .stp
  | 0x3#3 => some (.mulZpX b1)
  | 0x4#3 => some (.rrfZp b1)
  | 0x5#3 => some (.ldxImm b1)
  | 0x6#3 => some .wit
  | 0x7#3 => some (.divZpX b1)

/-- Opcodes whose lower five bits are 0x04 (30_encoding.md R52). -/
def decodeColumn04 (hi : BitNumber) (b1 : Byte) : Option Instr :=
  match hi with
  | 0x1#3 => some (.bitZp b1)
  | 0x2#3 => some (.comZp b1)
  | 0x3#3 => some (.tstZp b1)
  | 0x4#3 => some (.styZp b1)
  | 0x5#3 => some (.ldyZp b1)
  | 0x6#3 => some (.cpyZp b1)
  | 0x7#3 => some (.cpxZp b1)
  | _ => none

/-- Opcodes whose lower five bits are 0x05 (30_encoding.md R52). -/
def decodeColumn05 (hi : BitNumber) (b1 : Byte) : Option Instr :=
  match hi with
  | 0x0#3 => some (.oraZp b1)
  | 0x1#3 => some (.andZp b1)
  | 0x2#3 => some (.eorZp b1)
  | 0x3#3 => some (.adcZp b1)
  | 0x4#3 => some (.staZp b1)
  | 0x5#3 => some (.ldaZp b1)
  | 0x6#3 => some (.cmpZp b1)
  | 0x7#3 => some (.sbcZp b1)

/-- Opcodes whose lower five bits are 0x06 (30_encoding.md R52). -/
def decodeColumn06 (hi : BitNumber) (b1 : Byte) : Option Instr :=
  match hi with
  | 0x0#3 => some (.aslZp b1)
  | 0x1#3 => some (.rolZp b1)
  | 0x2#3 => some (.lsrZp b1)
  | 0x3#3 => some (.rorZp b1)
  | 0x4#3 => some (.stxZp b1)
  | 0x5#3 => some (.ldxZp b1)
  | 0x6#3 => some (.decZp b1)
  | 0x7#3 => some (.incZp b1)

/-- Opcodes whose lower five bits are 0x08 (30_encoding.md R52). -/
def decodeColumn08 (hi : BitNumber) : Option Instr :=
  match hi with
  | 0x0#3 => some .php
  | 0x1#3 => some .plp
  | 0x2#3 => some .pha
  | 0x3#3 => some .pla
  | 0x4#3 => some .dey
  | 0x5#3 => some .tay
  | 0x6#3 => some .iny
  | 0x7#3 => some .inx

/-- Opcodes whose lower five bits are 0x09 (30_encoding.md R52). -/
def decodeColumn09 (hi : BitNumber) (b1 : Byte) : Option Instr :=
  match hi with
  | 0x0#3 => some (.oraImm b1)
  | 0x1#3 => some (.andImm b1)
  | 0x2#3 => some (.eorImm b1)
  | 0x3#3 => some (.adcImm b1)
  | 0x5#3 => some (.ldaImm b1)
  | 0x6#3 => some (.cmpImm b1)
  | 0x7#3 => some (.sbcImm b1)
  | _ => none

/-- Opcodes whose lower five bits are 0x0A (30_encoding.md R52). -/
def decodeColumn0A (hi : BitNumber) : Option Instr :=
  match hi with
  | 0x0#3 => some .aslA
  | 0x1#3 => some .rolA
  | 0x2#3 => some .lsrA
  | 0x3#3 => some .rorA
  | 0x4#3 => some .txa
  | 0x5#3 => some .tax
  | 0x6#3 => some .dex
  | 0x7#3 => some .nop

/-- Opcodes whose lower five bits are 0x0C (30_encoding.md R52). -/
def decodeColumn0C (hi : BitNumber) (b1 b2 : Byte) : Option Instr :=
  match hi with
  | 0x1#3 => some (.bitAbs (concat b2 b1))
  | 0x2#3 => some (.jmpAbs (concat b2 b1))
  | 0x3#3 => some (.jmpInd (concat b2 b1))
  | 0x4#3 => some (.styAbs (concat b2 b1))
  | 0x5#3 => some (.ldyAbs (concat b2 b1))
  | 0x6#3 => some (.cpyAbs (concat b2 b1))
  | 0x7#3 => some (.cpxAbs (concat b2 b1))
  | _ => none

/-- Opcodes whose lower five bits are 0x0D (30_encoding.md R52). -/
def decodeColumn0D (hi : BitNumber) (b1 b2 : Byte) : Option Instr :=
  match hi with
  | 0x0#3 => some (.oraAbs (concat b2 b1))
  | 0x1#3 => some (.andAbs (concat b2 b1))
  | 0x2#3 => some (.eorAbs (concat b2 b1))
  | 0x3#3 => some (.adcAbs (concat b2 b1))
  | 0x4#3 => some (.staAbs (concat b2 b1))
  | 0x5#3 => some (.ldaAbs (concat b2 b1))
  | 0x6#3 => some (.cmpAbs (concat b2 b1))
  | 0x7#3 => some (.sbcAbs (concat b2 b1))

/-- Opcodes whose lower five bits are 0x0E (30_encoding.md R52). -/
def decodeColumn0E (hi : BitNumber) (b1 b2 : Byte) : Option Instr :=
  match hi with
  | 0x0#3 => some (.aslAbs (concat b2 b1))
  | 0x1#3 => some (.rolAbs (concat b2 b1))
  | 0x2#3 => some (.lsrAbs (concat b2 b1))
  | 0x3#3 => some (.rorAbs (concat b2 b1))
  | 0x4#3 => some (.stxAbs (concat b2 b1))
  | 0x5#3 => some (.ldxAbs (concat b2 b1))
  | 0x6#3 => some (.decAbs (concat b2 b1))
  | 0x7#3 => some (.incAbs (concat b2 b1))

/-- Opcodes whose lower five bits are 0x10 (30_encoding.md R52). -/
def decodeColumn10 (hi : BitNumber) (b1 : Byte) : Option Instr :=
  match hi with
  | 0x0#3 => some (.bpl b1)
  | 0x1#3 => some (.bmi b1)
  | 0x2#3 => some (.bvc b1)
  | 0x3#3 => some (.bvs b1)
  | 0x4#3 => some (.bcc b1)
  | 0x5#3 => some (.bcs b1)
  | 0x6#3 => some (.bne b1)
  | 0x7#3 => some (.beq b1)

/-- Opcodes whose lower five bits are 0x11 (30_encoding.md R52). -/
def decodeColumn11 (hi : BitNumber) (b1 : Byte) : Option Instr :=
  match hi with
  | 0x0#3 => some (.oraIndY b1)
  | 0x1#3 => some (.andIndY b1)
  | 0x2#3 => some (.eorIndY b1)
  | 0x3#3 => some (.adcIndY b1)
  | 0x4#3 => some (.staIndY b1)
  | 0x5#3 => some (.ldaIndY b1)
  | 0x6#3 => some (.cmpIndY b1)
  | 0x7#3 => some (.sbcIndY b1)

/-- Opcodes whose lower five bits are 0x12 (30_encoding.md R52). -/
def decodeColumn12 (hi : BitNumber) (b1 : Byte) : Option Instr :=
  match hi with
  | 0x0#3 => some .clt
  | 0x1#3 => some .set
  | 0x5#3 => some (.jmpZpInd b1)
  | _ => none

/-- Opcodes whose lower five bits are 0x14 (30_encoding.md R52). -/
def decodeColumn14 (hi : BitNumber) (b1 : Byte) : Option Instr :=
  match hi with
  | 0x4#3 => some (.styZpX b1)
  | 0x5#3 => some (.ldyZpX b1)
  | _ => none

/-- Opcodes whose lower five bits are 0x15 (30_encoding.md R52). -/
def decodeColumn15 (hi : BitNumber) (b1 : Byte) : Option Instr :=
  match hi with
  | 0x0#3 => some (.oraZpX b1)
  | 0x1#3 => some (.andZpX b1)
  | 0x2#3 => some (.eorZpX b1)
  | 0x3#3 => some (.adcZpX b1)
  | 0x4#3 => some (.staZpX b1)
  | 0x5#3 => some (.ldaZpX b1)
  | 0x6#3 => some (.cmpZpX b1)
  | 0x7#3 => some (.sbcZpX b1)

/-- Opcodes whose lower five bits are 0x16 (30_encoding.md R52). -/
def decodeColumn16 (hi : BitNumber) (b1 : Byte) : Option Instr :=
  match hi with
  | 0x0#3 => some (.aslZpX b1)
  | 0x1#3 => some (.rolZpX b1)
  | 0x2#3 => some (.lsrZpX b1)
  | 0x3#3 => some (.rorZpX b1)
  | 0x4#3 => some (.stxZpY b1)
  | 0x5#3 => some (.ldxZpY b1)
  | 0x6#3 => some (.decZpX b1)
  | 0x7#3 => some (.incZpX b1)

/-- Opcodes whose lower five bits are 0x18 (30_encoding.md R52). -/
def decodeColumn18 (hi : BitNumber) : Option Instr :=
  match hi with
  | 0x0#3 => some .clc
  | 0x1#3 => some .sec
  | 0x2#3 => some .cli
  | 0x3#3 => some .sei
  | 0x4#3 => some .tya
  | 0x5#3 => some .clv
  | 0x6#3 => some .cld
  | 0x7#3 => some .sed

/-- Opcodes whose lower five bits are 0x19 (30_encoding.md R52). -/
def decodeColumn19 (hi : BitNumber) (b1 b2 : Byte) : Option Instr :=
  match hi with
  | 0x0#3 => some (.oraAbsY (concat b2 b1))
  | 0x1#3 => some (.andAbsY (concat b2 b1))
  | 0x2#3 => some (.eorAbsY (concat b2 b1))
  | 0x3#3 => some (.adcAbsY (concat b2 b1))
  | 0x4#3 => some (.staAbsY (concat b2 b1))
  | 0x5#3 => some (.ldaAbsY (concat b2 b1))
  | 0x6#3 => some (.cmpAbsY (concat b2 b1))
  | 0x7#3 => some (.sbcAbsY (concat b2 b1))

/-- Opcodes whose lower five bits are 0x1A (30_encoding.md R52). -/
def decodeColumn1A (hi : BitNumber) : Option Instr :=
  match hi with
  | 0x0#3 => some .decA
  | 0x1#3 => some .incA
  | 0x4#3 => some .txs
  | 0x5#3 => some .tsx
  | _ => none

/-- Opcodes whose lower five bits are 0x1C (30_encoding.md R52). -/
def decodeColumn1C (hi : BitNumber) (b1 b2 : Byte) : Option Instr :=
  match hi with
  | 0x1#3 => some (.ldm b1 b2)
  | 0x5#3 => some (.ldyAbsX (concat b2 b1))
  | _ => none

/-- Opcodes whose lower five bits are 0x1D (30_encoding.md R52). -/
def decodeColumn1D (hi : BitNumber) (b1 b2 : Byte) : Option Instr :=
  match hi with
  | 0x0#3 => some (.oraAbsX (concat b2 b1))
  | 0x1#3 => some (.andAbsX (concat b2 b1))
  | 0x2#3 => some (.eorAbsX (concat b2 b1))
  | 0x3#3 => some (.adcAbsX (concat b2 b1))
  | 0x4#3 => some (.staAbsX (concat b2 b1))
  | 0x5#3 => some (.ldaAbsX (concat b2 b1))
  | 0x6#3 => some (.cmpAbsX (concat b2 b1))
  | 0x7#3 => some (.sbcAbsX (concat b2 b1))

/-- Opcodes whose lower five bits are 0x1E (30_encoding.md R52). -/
def decodeColumn1E (hi : BitNumber) (b1 b2 : Byte) : Option Instr :=
  match hi with
  | 0x0#3 => some (.aslAbsX (concat b2 b1))
  | 0x1#3 => some (.rolAbsX (concat b2 b1))
  | 0x2#3 => some (.lsrAbsX (concat b2 b1))
  | 0x3#3 => some (.rorAbsX (concat b2 b1))
  | 0x5#3 => some (.ldxAbsY (concat b2 b1))
  | 0x6#3 => some (.decAbsX (concat b2 b1))
  | 0x7#3 => some (.incAbsX (concat b2 b1))
  | _ => none

/-- The instruction with opcode `{hi, lo}` and operand bytes `b1`, `b2`, as far as it has them (30_encoding.md R51 to R53). -/
def decodeColumns (lo : BitVec 5) (hi : BitNumber) (b1 b2 : Byte) : Option Instr :=
  match lo with
  | 0x00#5 => decodeColumn00 hi b1 b2
  | 0x01#5 => decodeColumn01 hi b1
  | 0x02#5 => decodeColumn02 hi b1
  | 0x03#5 => some (.bbsA hi b1)
  | 0x04#5 => decodeColumn04 hi b1
  | 0x05#5 => decodeColumn05 hi b1
  | 0x06#5 => decodeColumn06 hi b1
  | 0x07#5 => some (.bbsZp hi b1 b2)
  | 0x08#5 => decodeColumn08 hi
  | 0x09#5 => decodeColumn09 hi b1
  | 0x0A#5 => decodeColumn0A hi
  | 0x0B#5 => some (.sebA hi)
  | 0x0C#5 => decodeColumn0C hi b1 b2
  | 0x0D#5 => decodeColumn0D hi b1 b2
  | 0x0E#5 => decodeColumn0E hi b1 b2
  | 0x0F#5 => some (.sebZp hi b1)
  | 0x10#5 => decodeColumn10 hi b1
  | 0x11#5 => decodeColumn11 hi b1
  | 0x12#5 => decodeColumn12 hi b1
  | 0x13#5 => some (.bbcA hi b1)
  | 0x14#5 => decodeColumn14 hi b1
  | 0x15#5 => decodeColumn15 hi b1
  | 0x16#5 => decodeColumn16 hi b1
  | 0x17#5 => some (.bbcZp hi b1 b2)
  | 0x18#5 => decodeColumn18 hi
  | 0x19#5 => decodeColumn19 hi b1 b2
  | 0x1A#5 => decodeColumn1A hi
  | 0x1B#5 => some (.clbA hi)
  | 0x1C#5 => decodeColumn1C hi b1 b2
  | 0x1D#5 => decodeColumn1D hi b1 b2
  | 0x1E#5 => decodeColumn1E hi b1 b2
  | _ => some (.clbZp hi b1)

/-- The instruction with opcode byte `op` and operand bytes `b1`, `b2` (30_encoding.md R52). -/
def decodeOpcode (op b1 b2 : Byte) : Option Instr :=
  decodeColumns (op.extractLsb' 0 5) (op.extractLsb' 5 3) b1 b2

/-- The opcode byte of a bit instruction: the bit number above the five bits `k` (30_encoding.md R53 (a): `20i + k`). -/
def bitOpcode (i : BitNumber) (k : BitVec 5) : Byte := i ++ k

/-- The bytes of an instruction in program memory, opcode first (30_encoding.md R50, R51; low address byte first, 20_memory.md
R35). -/
def encode : Instr → List Byte
  | .brk => [0x00#8]
  | .oraIndX zz => [0x01#8, zz]
  | .jsrZpInd zz => [0x02#8, zz]
  | .bbsA i rr => [bitOpcode i 0x03#5, rr]
  | .oraZp zz => [0x05#8, zz]
  | .aslZp zz => [0x06#8, zz]
  | .bbsZp i zz rr => [bitOpcode i 0x07#5, zz, rr]
  | .php => [0x08#8]
  | .oraImm nn => [0x09#8, nn]
  | .aslA => [0x0A#8]
  | .sebA i => [bitOpcode i 0x0B#5]
  | .oraAbs hhll => [0x0D#8, lowByte hhll, highByte hhll]
  | .aslAbs hhll => [0x0E#8, lowByte hhll, highByte hhll]
  | .sebZp i zz => [bitOpcode i 0x0F#5, zz]
  | .bpl rr => [0x10#8, rr]
  | .oraIndY zz => [0x11#8, zz]
  | .clt => [0x12#8]
  | .bbcA i rr => [bitOpcode i 0x13#5, rr]
  | .oraZpX zz => [0x15#8, zz]
  | .aslZpX zz => [0x16#8, zz]
  | .bbcZp i zz rr => [bitOpcode i 0x17#5, zz, rr]
  | .clc => [0x18#8]
  | .oraAbsY hhll => [0x19#8, lowByte hhll, highByte hhll]
  | .decA => [0x1A#8]
  | .clbA i => [bitOpcode i 0x1B#5]
  | .oraAbsX hhll => [0x1D#8, lowByte hhll, highByte hhll]
  | .aslAbsX hhll => [0x1E#8, lowByte hhll, highByte hhll]
  | .clbZp i zz => [bitOpcode i 0x1F#5, zz]
  | .jsrAbs hhll => [0x20#8, lowByte hhll, highByte hhll]
  | .andIndX zz => [0x21#8, zz]
  | .jsrSp hhll => [0x22#8, lowByte hhll]
  | .bitZp zz => [0x24#8, zz]
  | .andZp zz => [0x25#8, zz]
  | .rolZp zz => [0x26#8, zz]
  | .plp => [0x28#8]
  | .andImm nn => [0x29#8, nn]
  | .rolA => [0x2A#8]
  | .bitAbs hhll => [0x2C#8, lowByte hhll, highByte hhll]
  | .andAbs hhll => [0x2D#8, lowByte hhll, highByte hhll]
  | .rolAbs hhll => [0x2E#8, lowByte hhll, highByte hhll]
  | .bmi rr => [0x30#8, rr]
  | .andIndY zz => [0x31#8, zz]
  | .set => [0x32#8]
  | .andZpX zz => [0x35#8, zz]
  | .rolZpX zz => [0x36#8, zz]
  | .sec => [0x38#8]
  | .andAbsY hhll => [0x39#8, lowByte hhll, highByte hhll]
  | .incA => [0x3A#8]
  | .ldm nn zz => [0x3C#8, nn, zz]
  | .andAbsX hhll => [0x3D#8, lowByte hhll, highByte hhll]
  | .rolAbsX hhll => [0x3E#8, lowByte hhll, highByte hhll]
  | .rti => [0x40#8]
  | .eorIndX zz => [0x41#8, zz]
  | .stp => [0x42#8]
  | .comZp zz => [0x44#8, zz]
  | .eorZp zz => [0x45#8, zz]
  | .lsrZp zz => [0x46#8, zz]
  | .pha => [0x48#8]
  | .eorImm nn => [0x49#8, nn]
  | .lsrA => [0x4A#8]
  | .jmpAbs hhll => [0x4C#8, lowByte hhll, highByte hhll]
  | .eorAbs hhll => [0x4D#8, lowByte hhll, highByte hhll]
  | .lsrAbs hhll => [0x4E#8, lowByte hhll, highByte hhll]
  | .bvc rr => [0x50#8, rr]
  | .eorIndY zz => [0x51#8, zz]
  | .eorZpX zz => [0x55#8, zz]
  | .lsrZpX zz => [0x56#8, zz]
  | .cli => [0x58#8]
  | .eorAbsY hhll => [0x59#8, lowByte hhll, highByte hhll]
  | .eorAbsX hhll => [0x5D#8, lowByte hhll, highByte hhll]
  | .lsrAbsX hhll => [0x5E#8, lowByte hhll, highByte hhll]
  | .rts => [0x60#8]
  | .adcIndX zz => [0x61#8, zz]
  | .mulZpX zz => [0x62#8, zz]
  | .tstZp zz => [0x64#8, zz]
  | .adcZp zz => [0x65#8, zz]
  | .rorZp zz => [0x66#8, zz]
  | .pla => [0x68#8]
  | .adcImm nn => [0x69#8, nn]
  | .rorA => [0x6A#8]
  | .jmpInd hhll => [0x6C#8, lowByte hhll, highByte hhll]
  | .adcAbs hhll => [0x6D#8, lowByte hhll, highByte hhll]
  | .rorAbs hhll => [0x6E#8, lowByte hhll, highByte hhll]
  | .bvs rr => [0x70#8, rr]
  | .adcIndY zz => [0x71#8, zz]
  | .adcZpX zz => [0x75#8, zz]
  | .rorZpX zz => [0x76#8, zz]
  | .sei => [0x78#8]
  | .adcAbsY hhll => [0x79#8, lowByte hhll, highByte hhll]
  | .adcAbsX hhll => [0x7D#8, lowByte hhll, highByte hhll]
  | .rorAbsX hhll => [0x7E#8, lowByte hhll, highByte hhll]
  | .bra rr => [0x80#8, rr]
  | .staIndX zz => [0x81#8, zz]
  | .rrfZp zz => [0x82#8, zz]
  | .styZp zz => [0x84#8, zz]
  | .staZp zz => [0x85#8, zz]
  | .stxZp zz => [0x86#8, zz]
  | .dey => [0x88#8]
  | .txa => [0x8A#8]
  | .styAbs hhll => [0x8C#8, lowByte hhll, highByte hhll]
  | .staAbs hhll => [0x8D#8, lowByte hhll, highByte hhll]
  | .stxAbs hhll => [0x8E#8, lowByte hhll, highByte hhll]
  | .bcc rr => [0x90#8, rr]
  | .staIndY zz => [0x91#8, zz]
  | .styZpX zz => [0x94#8, zz]
  | .staZpX zz => [0x95#8, zz]
  | .stxZpY zz => [0x96#8, zz]
  | .tya => [0x98#8]
  | .staAbsY hhll => [0x99#8, lowByte hhll, highByte hhll]
  | .txs => [0x9A#8]
  | .staAbsX hhll => [0x9D#8, lowByte hhll, highByte hhll]
  | .ldyImm nn => [0xA0#8, nn]
  | .ldaIndX zz => [0xA1#8, zz]
  | .ldxImm nn => [0xA2#8, nn]
  | .ldyZp zz => [0xA4#8, zz]
  | .ldaZp zz => [0xA5#8, zz]
  | .ldxZp zz => [0xA6#8, zz]
  | .tay => [0xA8#8]
  | .ldaImm nn => [0xA9#8, nn]
  | .tax => [0xAA#8]
  | .ldyAbs hhll => [0xAC#8, lowByte hhll, highByte hhll]
  | .ldaAbs hhll => [0xAD#8, lowByte hhll, highByte hhll]
  | .ldxAbs hhll => [0xAE#8, lowByte hhll, highByte hhll]
  | .bcs rr => [0xB0#8, rr]
  | .ldaIndY zz => [0xB1#8, zz]
  | .jmpZpInd zz => [0xB2#8, zz]
  | .ldyZpX zz => [0xB4#8, zz]
  | .ldaZpX zz => [0xB5#8, zz]
  | .ldxZpY zz => [0xB6#8, zz]
  | .clv => [0xB8#8]
  | .ldaAbsY hhll => [0xB9#8, lowByte hhll, highByte hhll]
  | .tsx => [0xBA#8]
  | .ldyAbsX hhll => [0xBC#8, lowByte hhll, highByte hhll]
  | .ldaAbsX hhll => [0xBD#8, lowByte hhll, highByte hhll]
  | .ldxAbsY hhll => [0xBE#8, lowByte hhll, highByte hhll]
  | .cpyImm nn => [0xC0#8, nn]
  | .cmpIndX zz => [0xC1#8, zz]
  | .wit => [0xC2#8]
  | .cpyZp zz => [0xC4#8, zz]
  | .cmpZp zz => [0xC5#8, zz]
  | .decZp zz => [0xC6#8, zz]
  | .iny => [0xC8#8]
  | .cmpImm nn => [0xC9#8, nn]
  | .dex => [0xCA#8]
  | .cpyAbs hhll => [0xCC#8, lowByte hhll, highByte hhll]
  | .cmpAbs hhll => [0xCD#8, lowByte hhll, highByte hhll]
  | .decAbs hhll => [0xCE#8, lowByte hhll, highByte hhll]
  | .bne rr => [0xD0#8, rr]
  | .cmpIndY zz => [0xD1#8, zz]
  | .cmpZpX zz => [0xD5#8, zz]
  | .decZpX zz => [0xD6#8, zz]
  | .cld => [0xD8#8]
  | .cmpAbsY hhll => [0xD9#8, lowByte hhll, highByte hhll]
  | .cmpAbsX hhll => [0xDD#8, lowByte hhll, highByte hhll]
  | .decAbsX hhll => [0xDE#8, lowByte hhll, highByte hhll]
  | .cpxImm nn => [0xE0#8, nn]
  | .sbcIndX zz => [0xE1#8, zz]
  | .divZpX zz => [0xE2#8, zz]
  | .cpxZp zz => [0xE4#8, zz]
  | .sbcZp zz => [0xE5#8, zz]
  | .incZp zz => [0xE6#8, zz]
  | .inx => [0xE8#8]
  | .sbcImm nn => [0xE9#8, nn]
  | .nop => [0xEA#8]
  | .cpxAbs hhll => [0xEC#8, lowByte hhll, highByte hhll]
  | .sbcAbs hhll => [0xED#8, lowByte hhll, highByte hhll]
  | .incAbs hhll => [0xEE#8, lowByte hhll, highByte hhll]
  | .beq rr => [0xF0#8, rr]
  | .sbcIndY zz => [0xF1#8, zz]
  | .sbcZpX zz => [0xF5#8, zz]
  | .incZpX zz => [0xF6#8, zz]
  | .sed => [0xF8#8]
  | .sbcAbsY hhll => [0xF9#8, lowByte hhll, highByte hhll]
  | .sbcAbsX hhll => [0xFD#8, lowByte hhll, highByte hhll]
  | .incAbsX hhll => [0xFE#8, lowByte hhll, highByte hhll]

/-- How many bytes an instruction is (30_encoding.md R50). -/
def Instr.length (i : Instr) : Nat := (encode i).length

/-- How many bytes the opcode says the instruction has, by its low nibble (30_encoding.md R55). For an undefined opcode no
length is given by the spec (R54); the number here then only says how many bytes are fetched before the opcode is refused. -/
def opcodeLength (op : Byte) : Nat :=
  match lowNibble op with
  | 0x0#4 =>
    if op = 0x00#8 ∨ op = 0x40#8 ∨ op = 0x60#8 then 1 else if op = 0x20#8 then 3 else 2
  | 0x2#4 =>
    if op = 0x12#8 ∨ op = 0x32#8 ∨ op = 0x42#8 ∨ op = 0xC2#8 then 1 else 2
  | 0x7#4 => 3
  | 0x8#4 => 1
  | 0x9#4 => if bitOf op 4 then 3 else 2
  | 0xA#4 => 1
  | 0xB#4 => 1
  | 0xC#4 => 3
  | 0xD#4 => 3
  | 0xE#4 => 3
  | _ => 2

/-- The instruction at the head of a list of bytes and the bytes after it, or why there is none. -/
def decode : List Byte → Except DecodeError (Instr × List Byte)
  | [] => .error .noBytes
  | op :: rest =>
    match decodeOpcode op (rest.getD 0 0x00#8) (rest.getD 1 0x00#8) with
    | none => .error (.undefinedOpcode op)
    | some i =>
      if i.length ≤ rest.length + 1 then .ok (i, rest.drop (i.length - 1)) else .error (.missingOperand op)

/-- The bytes of a row of the opcode table: byte 0 is bits 7 to 0 of `w`, byte 1 bits 15 to 8, byte 2 bits 23 to 16; bits of
`w` from `nbits` on are taken as 0. Three bytes, the longest instruction. -/
def tableBytes (nbits w : Nat) : List Byte :=
  let v := w % 2 ^ nbits
  [BitVec.ofNat 8 v, BitVec.ofNat 8 (v / 256), BitVec.ofNat 8 (v / 65536)]

/-- The instruction the decoder reads from the bits of a row of the opcode table. -/
def decodeTableWord (nbits w : Nat) : Option Instr :=
  match decode (tableBytes nbits w) with
  | .ok (i, _) => some i
  | .error _ => none

end Sys2Proof
end

