-- ==== Sys2Proof/Machine/Fetch.lean ====
section
/-! DEFINITION. Fetching an instruction's bytes at PC and decoding them (spec 00_scope.md R6, 20_memory.md R43, 30_encoding.md R50,
R54, R55). -/

namespace Sys2Proof.Machine

/-- The bytes fetched at PC: the opcode, then as many operand bytes as the opcode says, at ascending addresses modulo 65536
(30_encoding.md R50, R55; 92_eei_decisions.md D1). -/
def State.fetchBytes (s : State) : List Byte :=
  let op := s.busRead .opcode s.pc
  [op, s.busRead .operand1 (s.pc + 1#16), s.busRead .operand2 (s.pc + 2#16)].take (opcodeLength op)

/-- The instruction at PC, or the refusal of an undefined opcode (30_encoding.md R54). -/
def State.fetch (s : State) : Except Refusal Instr :=
  match decode s.fetchBytes with
  | .ok (i, _) => .ok i
  | .error _ => .error (.undefinedOpcode (s.busRead .opcode s.pc))

/-- Bytes stored at consecutive addresses from `a` on, modulo 65536, whatever the memory map says there: a program in place
(assumption log 6). -/
def placeBytes (m : Memory) (a : Word) : List Byte → Memory
  | [] => m
  | v :: rest => placeBytes (m.write a.toNat v) (a + 1#16) rest

end Sys2Proof.Machine
end

