-- ==== Sys2Proof/Machine/Hazards.lean ====
section
/-! DEFINITION. The software-visible hazards between an instruction and the next (spec 70_reset_and_hazards.md R193 to R196,
92_eei_decisions.md D15). -/

namespace Sys2Proof.Machine

/-- Whether the instruction is an ADC or SBC. -/
def isAddOrSubtract : Instr → Bool
  | .adcImm _ | .adcZp _ | .adcZpX _ | .adcAbs _ | .adcAbsX _ | .adcAbsY _ | .adcIndX _ | .adcIndY _ => true
  | .sbcImm _ | .sbcZp _ | .sbcZpX _ | .sbcAbs _ | .sbcAbsX _ | .sbcAbsY _ | .sbcIndX _ | .sbcIndY _ => true
  | _ => false

/-- The obligation an instruction executed in state `s` leaves to the next (R193, R194). -/
def hazardAfter (i : Instr) (s : State) : Hazard :=
  if i = .plp then .afterPlp
  else if isAddOrSubtract i && flag s.ps .d then .afterDecimal
  else .none

/-- The refusal of an instruction that breaks the obligation (R193, R194, U7). -/
def hazardRefusal (h : Hazard) (i : Instr) : Option Refusal :=
  match h with
  | .none => none
  | .afterPlp => if i = .nop then none else some .plpWithoutNop
  | .afterDecimal => if i = .sec ∨ i = .clc ∨ i = .cld then some .flagChangeAfterDecimal else none

/-- The sources whose request bit and enable bit lie in one register, of which the store between `s` and `t` cleared the request
and left the enable bit 1 (60_exceptions.md R188, R196). DEDUCED (assumption log 12), unsafe: read off the change between the states. -/
def forcedAfter (s t : State) : List IrqSource :=
  s.cfg.irqSources.filter fun q =>
    decide (q.requestAddress = q.enableAddress) && s.requested q && !t.requested q && t.enabled q

end Sys2Proof.Machine
end

