-- ==== Sys2Proof/Machine/Interrupts.lean ====
section
/-! DEFINITION. What happens at an instruction boundary other than an instruction: outside moves, hardware reset, interrupt
acceptance, the standby states (spec 60_exceptions.md R170 to R183, 70_reset_and_hazards.md R190, R191, R208). -/

namespace Sys2Proof.Machine

/-- Whether the byte at an address survives a hardware reset: ROM, and RAM where the product keeps it (92_eei_decisions.md D28). -/
def survivesReset (c : Config) (a : Word) : Bool :=
  match kindAt c a with
  | .rom => true
  | .ram => c.ramKeptAtReset
  | _ => false

/-- The memory after a hardware reset: arbitrary at every address whose byte does not survive (10_state.md R29, D28). -/
def State.memoryAfterReset (s : State) : Memory :=
  (Config.unspecifiedMemory s.draws).foldl
    (fun m c =>
      let a := BitVec.ofNat 16 c.1
      if survivesReset s.cfg a then m else m.write a.toNat c.2)
    s.mem

/-- A port after a hardware reset: input mode, the latch unspecified; what the outside drives stays (70_reset_and_hazards.md
R190). -/
def portAfterReset (s : State) (n : Nat) (p : Port) : Port :=
  { p with
    direction := inputDirection (portConfig s.cfg n)
    latch := Config.unspecifiedByte s.draws (.resetLatch n) }

/-- Hardware reset at a boundary: I = 1, run state RUN, ports in input mode, every other register and flag a free value, PC from
VEC_RESET (10_state.md R29, 70_reset_and_hazards.md R190, R191). DEDUCED (assumption log 7), safe. -/
def State.hardwareReset (s : State) : State :=
  let t : State :=
    { s with
      a := Config.unspecifiedByte s.draws .resetA
      x := Config.unspecifiedByte s.draws .resetX
      y := Config.unspecifiedByte s.draws .resetY
      sp := Config.unspecifiedByte s.draws .resetS
      ps := putFlag (Config.unspecifiedByte s.draws .resetPS) .i true
      mem := s.memoryAfterReset
      ports := s.ports.mapIdx (portAfterReset s)
      run := .run
      hazard := .none
      lag := []
      overwritten := []
      forced := []
      draws := s.draws + 1 }
  match s.cfg.vecReset with
  | .entry pc => { t with pc := pc }
  | .vector v => t.loadVector v

/-- The byte the register at `a` holds after the outside presents `v` to it: only the bits the outside can change, and no request
bit, which the outside only sets, by a request (70_reset_and_hazards.md R208 (b), (c)). -/
def presentedByte (c : Config) (a : Word) (b : RegisterBehaviour) (old v : Byte) : Byte :=
  mapRequestBits c a (fun _ => true) (fun o _ => o) old (underMask b.outsideMask old v)

/-- One move of the outside world (70_reset_and_hazards.md R208). A request of a source, or a change at a port or a
register, that the product does not have is nothing. -/
def applyMove (s : State) (m : OutsideMove) : State :=
  match m with
  | .reset => s.hardwareReset
  | .request k =>
    match s.cfg.irqSources[k]? with
    | some q => s.putRequest q true
    | none => s
  | .pins n v => { s with ports := s.ports.set n { s.port n with pins := v } }
  | .peripheral n v => { s with ports := s.ports.set n { s.port n with peripheral := v } }
  | .register a v =>
    match kindAt s.cfg a with
    | .register b => { s with mem := s.mem.write a.toNat (presentedByte s.cfg a b (s.mem.read a.toNat) v) }
    | _ => s

/-- The state after the outside moves of this boundary (70_reset_and_hazards.md R208, 92_eei_decisions.md D7). -/
def State.arrive (s : State) : State :=
  match s.outside with
  | [] => s
  | moves :: later => moves.foldl applyMove { s with outside := later }

/-- Whether source `q` is accepted at this boundary: I = 0 and request and enable bits both 1 (60_exceptions.md R172), or the
previous store cleared the request and set the enable bit together (R188, 70_reset_and_hazards.md R196). -/
def State.accepts (s : State) (q : IrqSource) : Bool :=
  !flag s.ps .i && ((s.enabled q && s.requested q) || s.forced.contains q)

/-- The source accepted at this boundary, of those that `among` admits: the acceptable one of highest priority (60_exceptions.md
R172, R175). -/
def State.acceptable (s : State) (among : IrqSource → Bool) : Option IrqSource :=
  s.cfg.irqSources.find? fun q => among q && s.accepts q

/-- `TakeInterrupt(q)` in place of the next instruction: the unadjusted PC saved with B = 0, the request bit cleared, run state RUN
(60_exceptions.md R173). It stands between two instructions, so no hazard of the previous one outlives it: DEDUCED (assumption log
10), unsafe. A forced source (R188) that is not the one accepted, because a source of higher priority is, is dropped: DESIGN CHOICE
(assumption log 12), unsafe; the spec does not say. -/
def State.takeInterrupt (s : State) (q : IrqSource) : State :=
  { s.enterException s.pc false (some q) q.vector with
    run := .run
    hazard := .none
    lag := []
    overwritten := []
    forced := []
    cycles := s.cycles + s.cfg.irqEntryCycles
    draws := s.draws + 1 }

/-- A boundary in WAIT or STOP, `wakes` the sources that can end it: an acceptable one is accepted; a request that is not
acceptable ends standby only if WAKE_REQUIRES_ACCEPT is false; otherwise nothing happens (60_exceptions.md R183,
92_eei_decisions.md D20). DEDUCED (assumption log 18), unsafe: without acceptance no enable bit is asked for. -/
def State.standby (s : State) (wakes : IrqSource → Bool) : State :=
  match s.acceptable wakes with
  | some q => s.takeInterrupt q
  | none =>
    if s.cfg.wakeRequiresAccept = false ∧ (s.cfg.irqSources.any fun q => wakes q && s.requested q) = true then
      { s with run := .run }
    else s

end Sys2Proof.Machine
end

