-- ==== Sys2Proof/Machine/Timing.lean ====
section
/-! DEFINITION. Cycle counts (spec 70_reset_and_hazards.md R202 to R205). Nothing the CPU computes depends on them (R202). -/

namespace Sys2Proof.Machine

/-- Cycles of an instruction with T = 0 and no branch taken (R203). -/
def baseCycles : Instr → Nat
  | .oraImm _ | .aslA | .sebA _ | .bpl _ | .clt | .clc => 2
  | .decA | .clbA _ | .andImm _ | .rolA | .bmi _ | .set => 2
  | .sec | .incA | .stp | .eorImm _ | .lsrA | .bvc _ => 2
  | .cli | .adcImm _ | .rorA | .bvs _ | .sei | .dey => 2
  | .txa | .bcc _ | .tya | .txs | .ldyImm _ | .ldxImm _ => 2
  | .tay | .ldaImm _ | .tax | .bcs _ | .clv | .tsx => 2
  | .cpyImm _ | .wit | .iny | .cmpImm _ | .dex | .bne _ => 2
  | .cld | .cpxImm _ | .inx | .sbcImm _ | .nop | .beq _ => 2
  | .sed => 2
  | .oraZp _ | .php | .bitZp _ | .andZp _ | .eorZp _ | .pha => 3
  | .jmpAbs _ | .tstZp _ | .adcZp _ | .ldyZp _ | .ldaZp _ | .ldxZp _ => 3
  | .cpyZp _ | .cmpZp _ | .cpxZp _ | .sbcZp _ => 3
  | .bbsA _ _ | .oraAbs _ | .bbcA _ _ | .oraZpX _ | .plp | .bitAbs _ => 4
  | .andAbs _ | .andZpX _ | .ldm _ _ | .eorAbs _ | .eorZpX _ | .pla => 4
  | .adcAbs _ | .adcZpX _ | .bra _ | .styZp _ | .staZp _ | .stxZp _ => 4
  | .ldyAbs _ | .ldaAbs _ | .ldxAbs _ | .jmpZpInd _ | .ldyZpX _ | .ldaZpX _ => 4
  | .ldxZpY _ | .cpyAbs _ | .cmpAbs _ | .cmpZpX _ | .cpxAbs _ | .sbcAbs _ => 4
  | .sbcZpX _ => 4
  | .aslZp _ | .bbsZp _ _ _ | .sebZp _ _ | .bbcZp _ _ _ | .oraAbsY _ | .oraAbsX _ => 5
  | .clbZp _ _ | .jsrSp _ | .rolZp _ | .andAbsY _ | .andAbsX _ | .comZp _ => 5
  | .lsrZp _ | .eorAbsY _ | .eorAbsX _ | .rorZp _ | .jmpInd _ | .adcAbsY _ => 5
  | .adcAbsX _ | .styAbs _ | .staAbs _ | .stxAbs _ | .styZpX _ | .staZpX _ => 5
  | .stxZpY _ | .ldaAbsY _ | .ldyAbsX _ | .ldaAbsX _ | .ldxAbsY _ | .decZp _ => 5
  | .cmpAbsY _ | .cmpAbsX _ | .incZp _ | .sbcAbsY _ | .sbcAbsX _ => 5
  | .oraIndX _ | .aslAbs _ | .oraIndY _ | .aslZpX _ | .jsrAbs _ | .andIndX _ => 6
  | .rolAbs _ | .andIndY _ | .rolZpX _ | .rti | .eorIndX _ | .lsrAbs _ => 6
  | .eorIndY _ | .lsrZpX _ | .rts | .adcIndX _ | .rorAbs _ | .adcIndY _ => 6
  | .rorZpX _ | .staAbsY _ | .staAbsX _ | .ldaIndX _ | .ldaIndY _ | .cmpIndX _ => 6
  | .decAbs _ | .cmpIndY _ | .decZpX _ | .sbcIndX _ | .incAbs _ | .sbcIndY _ => 6
  | .incZpX _ => 6
  | .brk | .jsrZpInd _ | .aslAbsX _ | .rolAbsX _ | .lsrAbsX _ | .rorAbsX _ => 7
  | .staIndX _ | .staIndY _ | .decAbsX _ | .incAbsX _ => 7
  | .rrfZp _ => 8
  | .mulZpX _ => 15
  | .divZpX _ => 16

/-- Cycles more when T = 1 (R204): 3 for ADC, SBC, AND, ORA, EOR; 2 for LDA; 1 for CMP. -/
def extraCyclesT : Instr → Nat
  | .cmpIndX _ | .cmpZp _ | .cmpImm _ | .cmpAbs _ | .cmpIndY _ | .cmpZpX _ => 1
  | .cmpAbsY _ | .cmpAbsX _ => 1
  | .ldaIndX _ | .ldaZp _ | .ldaImm _ | .ldaAbs _ | .ldaIndY _ | .ldaZpX _ => 2
  | .ldaAbsY _ | .ldaAbsX _ => 2
  | .oraIndX _ | .oraZp _ | .oraImm _ | .oraAbs _ | .oraIndY _ | .oraZpX _ => 3
  | .oraAbsY _ | .oraAbsX _ | .andIndX _ | .andZp _ | .andImm _ | .andAbs _ => 3
  | .andIndY _ | .andZpX _ | .andAbsY _ | .andAbsX _ | .eorIndX _ | .eorZp _ => 3
  | .eorImm _ | .eorAbs _ | .eorIndY _ | .eorZpX _ | .eorAbsY _ | .eorAbsX _ => 3
  | .adcIndX _ | .adcZp _ | .adcImm _ | .adcAbs _ | .adcIndY _ | .adcZpX _ => 3
  | .adcAbsY _ | .adcAbsX _ | .sbcIndX _ | .sbcZp _ | .sbcImm _ | .sbcAbs _ => 3
  | .sbcIndY _ | .sbcZpX _ | .sbcAbsY _ | .sbcAbsX _ => 3
  | _ => 0

/-- Whether a conditional branch is taken in state `s`; false for every other instruction (46_jump_branch_return.md R143 to R152). -/
def takesBranch (i : Instr) (s : State) : Bool :=
  match i with
  | .bcc _ => !flag s.ps .c
  | .bcs _ => flag s.ps .c
  | .bne _ => !flag s.ps .z
  | .beq _ => flag s.ps .z
  | .bpl _ => !flag s.ps .n
  | .bmi _ => flag s.ps .n
  | .bvc _ => !flag s.ps .v
  | .bvs _ => flag s.ps .v
  | .bbcA i _ => !bitOf s.a i.toNat
  | .bbsA i _ => bitOf s.a i.toNat
  | .bbcZp i zz _ => !s.testedBit zz i
  | .bbsZp i zz _ => s.testedBit zz i
  | _ => false

/-- Cycles an instruction takes when it is executed in state `s` (R203 to R205). -/
def cyclesOf (i : Instr) (s : State) : Nat :=
  baseCycles i + (if flag s.ps .t then extraCyclesT i else 0) + (if takesBranch i s then 2 else 0)

/-- Elapsed time: cycle count times the period of the internal clock (R202). -/
def State.elapsedTime (s : State) : Nat := s.cycles * s.cfg.phiPeriod

end Sys2Proof.Machine
end

