-- ==== Sys2Proof/Machine/Cycle.lean ====
section
/-! DEFINITION. One step of the CPU (spec 00_scope.md R6, 60_exceptions.md R172, R183). -/

namespace Sys2Proof.Machine

/-- What a completed instruction leaves for the next boundary: its hazards (the request registers it wrote still show BBC and BBS
the bytes they held, R195: DESIGN CHOICE, assumption log 13, unsafe), its cycles, fresh free values. `s` is the state it was
executed in, `t` the state its meaning gives. -/
def State.finish (s : State) (i : Instr) (t : State) : State :=
  { t with
    hazard := hazardAfter i s
    lag := t.overwritten
    overwritten := []
    forced := forcedAfter s t
    cycles := s.cycles + cyclesOf i s
    draws := s.draws + 1 }

/-- The meaning's answer with a next state finished. -/
def complete (i : Instr) (s : State) (r : Result) : Result :=
  match r with
  | .next t => .next (s.finish i t)
  | .fault f => .fault f
  | .refused q => .refused q

/-- Fetch, decode and execute the instruction at PC (00_scope.md R6 (2)). -/
def runInstruction (s : State) : Result :=
  match s.fetch with
  | .error r => .refused r
  | .ok i =>
    match hazardRefusal s.hazard i with
    | some r => .refused r
    | none => complete i s (exec i s)

/-- The step at a boundary whose outside moves have arrived: in RUN, acceptance of an interrupt or one instruction (00_scope.md R6);
in WAIT and STOP no instruction executes (10_state.md R27, 60_exceptions.md R183). -/
def atBoundary (s : State) : Result :=
  match s.run with
  | .wait => .next (s.standby (·.wakesWait))
  | .stop => .next (s.standby (·.wakesStop))
  | .run =>
    match s.acceptable fun _ => true with
    | some q => .next (s.takeInterrupt q)
    | none => runInstruction s

end Sys2Proof.Machine
end

