-- ==== Sys2Proof/Machine/Step.lean ====
section
/-! DEFINITION. The step of the machine, and a program placed where it fetches. -/

namespace Sys2Proof.Machine

/-- One step: the outside moves of this boundary arrive, then an interrupt is accepted, standby goes on, or one instruction is
executed (spec 00_scope.md R6, 70_reset_and_hazards.md R208). -/
def step (s : State) : Host.Outcome State Fault Refusal := atBoundary s.arrive

/-- The state with the instruction of an opcode-table row stored at PC, where the next step fetches (assumption log 6). -/
def State.withFetchWord (s : State) (nbits w : Nat) : State :=
  { s with mem := placeBytes s.mem s.pc (tableBytes nbits w) }

end Sys2Proof.Machine
end

