-- ==== Sys2Proof/Safety.lean ====
section
/-! DEFINITION. What counts as a good state and a good run, in the terms the statements use (spec 20_memory.md R30, R46,
60_exceptions.md R180, 70_reset_and_hazards.md R209). -/

namespace Sys2Proof.Machine

/-- Whether a read of an address of this kind gives the byte held there (20_memory.md R37). -/
def readsAsHeld : MemoryKind → Bool
  | .ram | .rom => true
  | .register b => b.readMask == 0xFF#8
  | _ => false

/-- The memory is in its canonical form, and the state holds one port for each port of the product. -/
def State.Formed (s : State) : Prop := s.mem.wf ∧ s.ports.length = s.cfg.ports.length

/-- The invariant of every step: the state is formed, and at a boundary no instruction is in progress that has overwritten request
registers. -/
def State.Inv (s : State) : Prop := s.Formed ∧ s.overwritten = []

/-- The step answers a next state: no fault, no refusal. -/
def Answers (s : State) : Prop := ∃ t, step s = .next t

/-- A run of `k` steps is safe when each of them answers a next state. -/
def SafeFor (s : State) (k : Nat) : Prop := ∃ t, Sys2Proof.core.run k s = .next t

/-- Nothing of the outside world is to come. -/
def State.Quiet (s : State) : Prop := s.outside = []

/-- Whether the source can end the run state the machine is in (60_exceptions.md R172, R183). -/
def State.wakes (s : State) (q : IrqSource) : Bool :=
  match s.run with
  | .run => true
  | .wait => q.wakesWait
  | .stop => q.wakesStop

/-- No source that can end the run state can be accepted: I = 1, or none of them has request and enable bits both 1 and none is
forced (60_exceptions.md R172). -/
def State.NoneAcceptable (s : State) : Prop := ∀ q ∈ s.cfg.irqSources, s.wakes q = true → s.accepts q = false

/-- The standby end state (70_reset_and_hazards.md R209 (2)): WAIT or STOP with no source able to wake it, and nothing to come. -/
def State.Asleep (s : State) : Prop :=
  s.Quiet ∧ s.run ≠ .run ∧ s.NoneAcceptable ∧
  (s.cfg.wakeRequiresAccept = true ∨ ∀ q ∈ s.cfg.irqSources, s.wakes q = true → s.requested q = false)

end Sys2Proof.Machine
end

