-- ==== Sys2Proof/Certificates/Slice0/Forms.lean ====
section
/-! DEFINITION. The vocabulary of the statements: which constructor is which form of a mnemonic (spec/opcode_table.json), what each
instruction may write (spec 10_state.md R11 to R13, R24), where it stores, and when the spec refuses it. -/

namespace Sys2Proof.Claims

open Sys2Proof.Machine

/-- The forms of LDA (R81). -/
def ldaForm : Operand → Option Instr
  | .imm nn => some (.ldaImm nn)
  | .mem (.zp zz) => some (.ldaZp zz)
  | .mem (.zpX zz) => some (.ldaZpX zz)
  | .mem (.abs hhll) => some (.ldaAbs hhll)
  | .mem (.absX hhll) => some (.ldaAbsX hhll)
  | .mem (.absY hhll) => some (.ldaAbsY hhll)
  | .mem (.indX zz) => some (.ldaIndX zz)
  | .mem (.indY zz) => some (.ldaIndY zz)
  | _ => none

/-- The forms of ADC (R100). -/
def adcForm : Operand → Option Instr
  | .imm nn => some (.adcImm nn)
  | .mem (.zp zz) => some (.adcZp zz)
  | .mem (.zpX zz) => some (.adcZpX zz)
  | .mem (.abs hhll) => some (.adcAbs hhll)
  | .mem (.absX hhll) => some (.adcAbsX hhll)
  | .mem (.absY hhll) => some (.adcAbsY hhll)
  | .mem (.indX zz) => some (.adcIndX zz)
  | .mem (.indY zz) => some (.adcIndY zz)
  | _ => none

/-- The forms of SBC (R101). -/
def sbcForm : Operand → Option Instr
  | .imm nn => some (.sbcImm nn)
  | .mem (.zp zz) => some (.sbcZp zz)
  | .mem (.zpX zz) => some (.sbcZpX zz)
  | .mem (.abs hhll) => some (.sbcAbs hhll)
  | .mem (.absX hhll) => some (.sbcAbsX hhll)
  | .mem (.absY hhll) => some (.sbcAbsY hhll)
  | .mem (.indX zz) => some (.sbcIndX zz)
  | .mem (.indY zz) => some (.sbcIndY zz)
  | _ => none

/-- The forms of AND (R112). -/
def andForm : Operand → Option Instr
  | .imm nn => some (.andImm nn)
  | .mem (.zp zz) => some (.andZp zz)
  | .mem (.zpX zz) => some (.andZpX zz)
  | .mem (.abs hhll) => some (.andAbs hhll)
  | .mem (.absX hhll) => some (.andAbsX hhll)
  | .mem (.absY hhll) => some (.andAbsY hhll)
  | .mem (.indX zz) => some (.andIndX zz)
  | .mem (.indY zz) => some (.andIndY zz)
  | _ => none

/-- The forms of ORA (R113). -/
def oraForm : Operand → Option Instr
  | .imm nn => some (.oraImm nn)
  | .mem (.zp zz) => some (.oraZp zz)
  | .mem (.zpX zz) => some (.oraZpX zz)
  | .mem (.abs hhll) => some (.oraAbs hhll)
  | .mem (.absX hhll) => some (.oraAbsX hhll)
  | .mem (.absY hhll) => some (.oraAbsY hhll)
  | .mem (.indX zz) => some (.oraIndX zz)
  | .mem (.indY zz) => some (.oraIndY zz)
  | _ => none

/-- The forms of EOR (R114). -/
def eorForm : Operand → Option Instr
  | .imm nn => some (.eorImm nn)
  | .mem (.zp zz) => some (.eorZp zz)
  | .mem (.zpX zz) => some (.eorZpX zz)
  | .mem (.abs hhll) => some (.eorAbs hhll)
  | .mem (.absX hhll) => some (.eorAbsX hhll)
  | .mem (.absY hhll) => some (.eorAbsY hhll)
  | .mem (.indX zz) => some (.eorIndX zz)
  | .mem (.indY zz) => some (.eorIndY zz)
  | _ => none

/-- The forms of CMP (R118). -/
def cmpForm : Operand → Option Instr
  | .imm nn => some (.cmpImm nn)
  | .mem (.zp zz) => some (.cmpZp zz)
  | .mem (.zpX zz) => some (.cmpZpX zz)
  | .mem (.abs hhll) => some (.cmpAbs hhll)
  | .mem (.absX hhll) => some (.cmpAbsX hhll)
  | .mem (.absY hhll) => some (.cmpAbsY hhll)
  | .mem (.indX zz) => some (.cmpIndX zz)
  | .mem (.indY zz) => some (.cmpIndY zz)
  | _ => none

/-- The forms of LDX (R83). -/
def ldxForm : Operand → Option Instr
  | .imm nn => some (.ldxImm nn)
  | .mem (.zp zz) => some (.ldxZp zz)
  | .mem (.zpY zz) => some (.ldxZpY zz)
  | .mem (.abs hhll) => some (.ldxAbs hhll)
  | .mem (.absY hhll) => some (.ldxAbsY hhll)
  | _ => none

/-- The forms of LDY (R84). -/
def ldyForm : Operand → Option Instr
  | .imm nn => some (.ldyImm nn)
  | .mem (.zp zz) => some (.ldyZp zz)
  | .mem (.zpX zz) => some (.ldyZpX zz)
  | .mem (.abs hhll) => some (.ldyAbs hhll)
  | .mem (.absX hhll) => some (.ldyAbsX hhll)
  | _ => none

/-- The forms of CPX (R119). -/
def cpxForm : Operand → Option Instr
  | .imm nn => some (.cpxImm nn)
  | .mem (.zp zz) => some (.cpxZp zz)
  | .mem (.abs hhll) => some (.cpxAbs hhll)
  | _ => none

/-- The forms of CPY (R120). -/
def cpyForm : Operand → Option Instr
  | .imm nn => some (.cpyImm nn)
  | .mem (.zp zz) => some (.cpyZp zz)
  | .mem (.abs hhll) => some (.cpyAbs hhll)
  | _ => none

/-- The forms of STA (R85). -/
def staForm : MemMode → Option Instr
  | .zp zz => some (.staZp zz)
  | .zpX zz => some (.staZpX zz)
  | .abs hhll => some (.staAbs hhll)
  | .absX hhll => some (.staAbsX hhll)
  | .absY hhll => some (.staAbsY hhll)
  | .indX zz => some (.staIndX zz)
  | .indY zz => some (.staIndY zz)
  | _ => none

/-- The forms of STX (R86). -/
def stxForm : MemMode → Option Instr
  | .zp zz => some (.stxZp zz)
  | .zpY zz => some (.stxZpY zz)
  | .abs hhll => some (.stxAbs hhll)
  | _ => none

/-- The forms of STY (R87). -/
def styForm : MemMode → Option Instr
  | .zp zz => some (.styZp zz)
  | .zpX zz => some (.styZpX zz)
  | .abs hhll => some (.styAbs hhll)
  | _ => none

/-- The forms of ASL (R122). -/
def aslForm : MemMode → Option Instr
  | .zp zz => some (.aslZp zz)
  | .zpX zz => some (.aslZpX zz)
  | .abs hhll => some (.aslAbs hhll)
  | .absX hhll => some (.aslAbsX hhll)
  | _ => none

/-- The forms of LSR (R123). -/
def lsrForm : MemMode → Option Instr
  | .zp zz => some (.lsrZp zz)
  | .zpX zz => some (.lsrZpX zz)
  | .abs hhll => some (.lsrAbs hhll)
  | .absX hhll => some (.lsrAbsX hhll)
  | _ => none

/-- The forms of ROL (R124). -/
def rolForm : MemMode → Option Instr
  | .zp zz => some (.rolZp zz)
  | .zpX zz => some (.rolZpX zz)
  | .abs hhll => some (.rolAbs hhll)
  | .absX hhll => some (.rolAbsX hhll)
  | _ => none

/-- The forms of ROR (R125). -/
def rorForm : MemMode → Option Instr
  | .zp zz => some (.rorZp zz)
  | .zpX zz => some (.rorZpX zz)
  | .abs hhll => some (.rorAbs hhll)
  | .absX hhll => some (.rorAbsX hhll)
  | _ => none

/-- The forms of INC (R102). -/
def incForm : MemMode → Option Instr
  | .zp zz => some (.incZp zz)
  | .zpX zz => some (.incZpX zz)
  | .abs hhll => some (.incAbs hhll)
  | .absX hhll => some (.incAbsX hhll)
  | _ => none

/-- The forms of DEC (R103). -/
def decForm : MemMode → Option Instr
  | .zp zz => some (.decZp zz)
  | .zpX zz => some (.decZpX zz)
  | .abs hhll => some (.decAbs hhll)
  | .absX hhll => some (.decAbsX hhll)
  | _ => none

/-- The forms of BIT (R116). -/
def bitForm : MemMode → Option Instr
  | .zp zz => some (.bitZp zz)
  | .abs hhll => some (.bitAbs hhll)
  | _ => none

/-- The four shifts and rotations (44_shift_rotate.md). -/
inductive Shift where
  | asl
  | lsr
  | rol
  | ror
  deriving DecidableEq, Repr

def shiftForm : Shift → MemMode → Option Instr
  | .asl => aslForm
  | .lsr => lsrForm
  | .rol => rolForm
  | .ror => rorForm

def shiftFormA : Shift → Instr
  | .asl => .aslA
  | .lsr => .lsrA
  | .rol => .rolA
  | .ror => .rorA

/-- Result byte as a number, from the operand `v` and the old carry `c` (R122 to R125). -/
def shiftResult : Shift → Nat → Bool → Nat
  | .asl, v, _ => 2 * v % 256
  | .lsr, v, _ => v / 2
  | .rol, v, c => (2 * v + c.toNat) % 256
  | .ror, v, c => v / 2 + 128 * c.toNat

/-- The bit that goes to C (R122 to R125). -/
def shiftCarry : Shift → Byte → Bool
  | .asl, v => bitOf v 7
  | .lsr, v => bitOf v 0
  | .rol, v => bitOf v 7
  | .ror, v => bitOf v 0

/-- The first operand of the T-dependent instructions: A, or M(X) when T = 1 (R21). -/
def first (s : State) : Byte := if flag s.ps .t then s.busRead .target (zeroPage s.x) else s.a

/-- The state after a T-dependent instruction of `n` bytes that gives the byte `r` and the status byte `ps`: `r` in A with memory
untouched, or with T = 1 stored at M(X) with A untouched (R21). -/
def destination (s : State) (n : Nat) (r ps : Byte) : State :=
  if flag s.ps .t then { (s.advance n).busWrite (zeroPage s.x) r with ps := ps }
  else { s.advance n with a := r, ps := ps }

/-- A byte of two decimal digits (R110). -/
def twoDigits (v : Byte) : Prop := v.toNat / 16 ≤ 9 ∧ v.toNat % 16 ≤ 9

/-- `dec(x)` (R110). -/
def decimal (v : Byte) : Nat := 10 * (v.toNat / 16) + v.toNat % 16

/-- The stack page selection bit, where the product has one: its address and its place (R13). -/
def selectionBit (c : Config) : List (Word × BitNumber) :=
  match c.stackPage with
  | .fixed01 => []
  | .sps a k => [(a, k)]

/-- The address of the byte `j` below S in the stack page, whichever page it is (R13, R33). -/
def stackWord (s : State) (j : Nat) : Word := s.stackAddress (s.sp - BitVec.ofNat 8 j)

/-- The same as a number. -/
def stackByte (s : State) (j : Nat) : Nat := (stackWord s j).toNat

/-- In either mode of the stack page: the `k` bytes below and at S are RAM, none of them a request register or the register of the
selection bit, so pushes store plain bytes into one page; and the selection bit is no request bit. -/
def PlainStack (s : State) (k : Nat) : Prop :=
  (∀ j, j < k → kindAt s.cfg (stackWord s j) = .ram ∧ (∀ q ∈ s.cfg.irqSources, q.requestAddress ≠ stackWord s j) ∧
    ∀ r ∈ selectionBit s.cfg, r.1 ≠ stackWord s j) ∧
  ∀ r ∈ selectionBit s.cfg, ∀ q ∈ s.cfg.irqSources, ¬(q.requestAddress = r.1 ∧ q.requestBit = r.2)

/-- A read of the address gives the byte stored there: RAM, ROM, or a register that reads as it holds (R37). -/
def Stored (s : State) (a : Word) : Prop := readsAsHeld (kindAt s.cfg a) = true

/-- The two bytes of a vector are stored bytes. -/
def StoredVector (s : State) (v : Word) : Prop := Stored s v ∧ Stored s (v + 1#16)

/-- The bytes stored at PC and after it, modulo 65536, are the encoding of the instruction (R50). -/
def Placed (s : State) (i : Instr) : Prop :=
  ∀ k v, (encode i)[k]? = some v → Stored s (s.pc + BitVec.ofNat 16 k) ∧ s.mem.read (s.pc + BitVec.ofNat 16 k).toNat = v

/-- Bit `k` of the address is the request bit of a source that a program can clear and not set (R174). -/
def ClearOnly (c : Config) (a : Word) (k : Nat) : Prop :=
  ∃ q ∈ c.irqSources, q.requestAddress = a ∧ q.requestBit.toNat = k ∧ q.setByWrite = false

/-- Bit `k` of address `a` is a request bit that a write to the address `ea` may set as a side effect (R207). -/
def MayBeRequested (c : Config) (ea : Word) (a k : Nat) : Prop :=
  ∃ b, kindAt c ea = .register b ∧
    ∃ n ∈ b.mayRequest, ∃ q, c.irqSources[n]? = some q ∧ q.requestAddress.toNat = a ∧ q.requestBit.toNat = k

/-- The addresses of the request registers that a write to `ea` may change as a side effect (R207). -/
def sideAddresses (c : Config) (ea : Word) : List Nat :=
  match kindAt c ea with
  | .register b => b.mayRequest.filterMap fun n => (c.irqSources[n]?).map (·.requestAddress.toNat)
  | _ => []

/-- A boundary at which an instruction runs: RUN, and no interrupt to accept (00_scope.md R6). -/
def RunsInstruction (s : State) : Prop := s.run = .run ∧ s.acceptable (fun _ => true) = none

/-- Whether the instruction writes A (R11; six of them only when T = 0). -/
def writesA (i : Instr) (s : State) : Bool :=
  match i with
  | .oraIndX _ | .oraZp _ | .oraImm _ | .oraAbs _ | .oraIndY _ | .oraZpX _ | .oraAbsY _ | .oraAbsX _ => !flag s.ps .t
  | .andIndX _ | .andZp _ | .andImm _ | .andAbs _ | .andIndY _ | .andZpX _ | .andAbsY _ | .andAbsX _ => !flag s.ps .t
  | .eorIndX _ | .eorZp _ | .eorImm _ | .eorAbs _ | .eorIndY _ | .eorZpX _ | .eorAbsY _ | .eorAbsX _ => !flag s.ps .t
  | .adcIndX _ | .adcZp _ | .adcImm _ | .adcAbs _ | .adcIndY _ | .adcZpX _ | .adcAbsY _ | .adcAbsX _ => !flag s.ps .t
  | .ldaIndX _ | .ldaZp _ | .ldaImm _ | .ldaAbs _ | .ldaIndY _ | .ldaZpX _ | .ldaAbsY _ | .ldaAbsX _ => !flag s.ps .t
  | .sbcIndX _ | .sbcZp _ | .sbcImm _ | .sbcAbs _ | .sbcIndY _ | .sbcZpX _ | .sbcAbsY _ | .sbcAbsX _ => !flag s.ps .t
  | .aslA | .decA | .rolA | .incA | .lsrA | .rorA | .sebA _ | .clbA _ => true
  | .mulZpX _ | .pla | .txa | .tya | .divZpX _ => true
  | _ => false

/-- Whether the instruction writes X (R12). -/
def writesX : Instr → Bool
  | .ldxImm _ | .ldxZp _ | .tax | .ldxAbs _ | .ldxZpY _ | .tsx | .ldxAbsY _ | .dex => true
  | .inx => true
  | _ => false

/-- Whether the instruction writes Y (R12). -/
def writesY : Instr → Bool
  | .dey | .ldyImm _ | .ldyZp _ | .tay | .ldyAbs _ | .ldyZpX _ | .ldyAbsX _ | .iny => true
  | _ => false

/-- Whether the instruction writes S (R13). -/
def writesS : Instr → Bool
  | .brk | .jsrZpInd _ | .php | .jsrAbs _ | .jsrSp _ | .plp | .rti | .pha => true
  | .rts | .mulZpX _ | .pla | .txs | .divZpX _ => true
  | _ => false

/-- The flags the instruction writes (R24, second table). -/
def writesFlag (i : Instr) (f : Flag) : Bool :=
  match i with
  | .adcIndX _ | .adcZp _ | .adcImm _ | .adcAbs _ | .adcIndY _ | .adcZpX _ | .adcAbsY _ | .adcAbsX _ => f == .n || f == .v || f == .z || f == .c
  | .sbcIndX _ | .sbcZp _ | .sbcImm _ | .sbcAbs _ | .sbcIndY _ | .sbcZpX _ | .sbcAbsY _ | .sbcAbsX _ => f == .n || f == .v || f == .z || f == .c
  | .aslZp _ | .aslA | .aslAbs _ | .aslZpX _ | .aslAbsX _ | .rolZp _ | .rolA | .rolAbs _ => f == .n || f == .z || f == .c
  | .rolZpX _ | .rolAbsX _ | .lsrZp _ | .lsrA | .lsrAbs _ | .lsrZpX _ | .lsrAbsX _ | .rorZp _ => f == .n || f == .z || f == .c
  | .rorA | .rorAbs _ | .rorZpX _ | .rorAbsX _ | .cpyImm _ | .cmpIndX _ | .cpyZp _ | .cmpZp _ => f == .n || f == .z || f == .c
  | .cmpImm _ | .cpyAbs _ | .cmpAbs _ | .cmpIndY _ | .cmpZpX _ | .cmpAbsY _ | .cmpAbsX _ | .cpxImm _ => f == .n || f == .z || f == .c
  | .cpxZp _ | .cpxAbs _ => f == .n || f == .z || f == .c
  | .bitZp _ | .bitAbs _ => f == .n || f == .v || f == .z
  | .oraIndX _ | .oraZp _ | .oraImm _ | .oraAbs _ | .oraIndY _ | .oraZpX _ | .oraAbsY _ | .decA => f == .n || f == .z
  | .oraAbsX _ | .andIndX _ | .andZp _ | .andImm _ | .andAbs _ | .andIndY _ | .andZpX _ | .andAbsY _ => f == .n || f == .z
  | .incA | .andAbsX _ | .eorIndX _ | .comZp _ | .eorZp _ | .eorImm _ | .eorAbs _ | .eorIndY _ => f == .n || f == .z
  | .eorZpX _ | .eorAbsY _ | .eorAbsX _ | .tstZp _ | .pla | .dey | .txa | .tya => f == .n || f == .z
  | .ldyImm _ | .ldaIndX _ | .ldxImm _ | .ldyZp _ | .ldaZp _ | .ldxZp _ | .tay | .ldaImm _ => f == .n || f == .z
  | .tax | .ldyAbs _ | .ldaAbs _ | .ldxAbs _ | .ldaIndY _ | .ldyZpX _ | .ldaZpX _ | .ldxZpY _ => f == .n || f == .z
  | .ldaAbsY _ | .tsx | .ldyAbsX _ | .ldaAbsX _ | .ldxAbsY _ | .decZp _ | .iny | .dex => f == .n || f == .z
  | .decAbs _ | .decZpX _ | .decAbsX _ | .incZp _ | .inx | .incAbs _ | .incZpX _ | .incAbsX _ => f == .n || f == .z
  | .clc | .sec => f == .c
  | .cld | .sed => f == .d
  | .cli | .sei => f == .i
  | .clt | .set => f == .t
  | .clv => f == .v
  | .brk => f == .b || f == .i
  | .plp | .rti => true
  | _ => false

/-- The address a memory mode designates, if it can be formed. -/
def addressList (m : MemMode) (s : State) : List Word :=
  match m.address s with
  | .ok ea => [ea]
  | .error _ => []

/-- The addresses at which pushes of these bytes, one after the other, store. -/
def pushAddresses (s : State) : List Byte → List Word
  | [] => []
  | v :: rest => s.stackAddress s.sp :: pushAddresses (s.push v) rest

/-- The addresses an instruction stores to, in order: what the meaning computes for its destination, its stack bytes, or M(X). -/
def storedAddresses (i : Instr) (s : State) : List Word :=
  match i with
  | .oraIndX _ | .oraZp _ | .oraImm _ | .oraAbs _ | .oraIndY _ | .oraZpX _ | .oraAbsY _ | .oraAbsX _ => if flag s.ps .t then [zeroPage s.x] else []
  | .andIndX _ | .andZp _ | .andImm _ | .andAbs _ | .andIndY _ | .andZpX _ | .andAbsY _ | .andAbsX _ => if flag s.ps .t then [zeroPage s.x] else []
  | .eorIndX _ | .eorZp _ | .eorImm _ | .eorAbs _ | .eorIndY _ | .eorZpX _ | .eorAbsY _ | .eorAbsX _ => if flag s.ps .t then [zeroPage s.x] else []
  | .adcIndX _ | .adcZp _ | .adcImm _ | .adcAbs _ | .adcIndY _ | .adcZpX _ | .adcAbsY _ | .adcAbsX _ => if flag s.ps .t then [zeroPage s.x] else []
  | .ldaIndX _ | .ldaZp _ | .ldaImm _ | .ldaAbs _ | .ldaIndY _ | .ldaZpX _ | .ldaAbsY _ | .ldaAbsX _ => if flag s.ps .t then [zeroPage s.x] else []
  | .sbcIndX _ | .sbcZp _ | .sbcImm _ | .sbcAbs _ | .sbcIndY _ | .sbcZpX _ | .sbcAbsY _ | .sbcAbsX _ => if flag s.ps .t then [zeroPage s.x] else []
  | .aslZp zz => addressList (.zp zz) s
  | .aslAbs hhll => addressList (.abs hhll) s
  | .sebZp _ zz => addressList (.zp zz) s
  | .aslZpX zz => addressList (.zpX zz) s
  | .aslAbsX hhll => addressList (.absX hhll) s
  | .clbZp _ zz => addressList (.zp zz) s
  | .rolZp zz => addressList (.zp zz) s
  | .rolAbs hhll => addressList (.abs hhll) s
  | .rolZpX zz => addressList (.zpX zz) s
  | .rolAbsX hhll => addressList (.absX hhll) s
  | .comZp zz => addressList (.zp zz) s
  | .lsrZp zz => addressList (.zp zz) s
  | .lsrAbs hhll => addressList (.abs hhll) s
  | .lsrZpX zz => addressList (.zpX zz) s
  | .lsrAbsX hhll => addressList (.absX hhll) s
  | .rorZp zz => addressList (.zp zz) s
  | .rorAbs hhll => addressList (.abs hhll) s
  | .rorZpX zz => addressList (.zpX zz) s
  | .rorAbsX hhll => addressList (.absX hhll) s
  | .staIndX zz => addressList (.indX zz) s
  | .rrfZp zz => addressList (.zp zz) s
  | .styZp zz => addressList (.zp zz) s
  | .staZp zz => addressList (.zp zz) s
  | .stxZp zz => addressList (.zp zz) s
  | .styAbs hhll => addressList (.abs hhll) s
  | .staAbs hhll => addressList (.abs hhll) s
  | .stxAbs hhll => addressList (.abs hhll) s
  | .staIndY zz => addressList (.indY zz) s
  | .styZpX zz => addressList (.zpX zz) s
  | .staZpX zz => addressList (.zpX zz) s
  | .stxZpY zz => addressList (.zpY zz) s
  | .staAbsY hhll => addressList (.absY hhll) s
  | .staAbsX hhll => addressList (.absX hhll) s
  | .decZp zz => addressList (.zp zz) s
  | .decAbs hhll => addressList (.abs hhll) s
  | .decZpX zz => addressList (.zpX zz) s
  | .decAbsX hhll => addressList (.absX hhll) s
  | .incZp zz => addressList (.zp zz) s
  | .incAbs hhll => addressList (.abs hhll) s
  | .incZpX zz => addressList (.zpX zz) s
  | .incAbsX hhll => addressList (.absX hhll) s
  | .ldm _ zz => addressList (.zp zz) s
  | .pha => pushAddresses s [s.a]
  | .php => pushAddresses s [s.ps]
  | .jsrAbs _ => pushAddresses s [highByte (s.pc + 2#16), lowByte (s.pc + 2#16)]
  | .jsrSp _ | .jsrZpInd _ => pushAddresses s [highByte (s.pc + 1#16), lowByte (s.pc + 1#16)]
  | .brk => pushAddresses s [highByte (s.pc + 2#16), lowByte (s.pc + 2#16), putFlag s.ps .b true]
  | .mulZpX _ | .divZpX _ => pushAddresses s [0x00#8]
  | _ => []

/-- The refusal of a zero-page item of two bytes that starts at `p` (20_memory.md R49). -/
def pointerRefusal (p : Byte) (s : State) : Option Refusal :=
  if p = 0xFF#8 ∧ s.cfg.zeroPagePointerWrap = .refuse then some .zeroPagePointerPageEnd else none

/-- When the spec refuses to execute an instruction (30_encoding.md R54, 20_memory.md R49); `none` says that it executes. -/
def refusalOf (i : Instr) (s : State) : Option Refusal :=
  match i with
  | .jmpInd hhll => if lowByte hhll = 0xFF#8 then some .jmpIndirectPageEnd else none
  | .jmpZpInd zz | .jsrZpInd zz => pointerRefusal zz s
  | .mulZpX _ => if s.cfg.hasMulDiv then none else some (.absentInstruction "MUL")
  | .divZpX zz => if s.cfg.hasMulDiv then pointerRefusal (zz + s.x) s else some (.absentInstruction "DIV")
  | .wit => if s.cfg.hasWit then none else some (.absentInstruction "WIT")
  | .ldaIndX zz | .adcIndX zz | .sbcIndX zz | .andIndX zz | .oraIndX zz | .eorIndX zz | .cmpIndX zz | .staIndX zz => pointerRefusal (zz + s.x) s
  | .ldaIndY zz | .adcIndY zz | .sbcIndY zz | .andIndY zz | .oraIndY zz | .eorIndY zz | .cmpIndY zz | .staIndY zz => pointerRefusal zz s
  | _ => none

/-- Cycles of a reading instruction by its mode, with T = 0 (70_reset_and_hazards.md R203). -/
def readCycles : Operand → Nat
  | .imm _ => 2
  | .mem (.zp _) => 3
  | .mem (.zpX _) | .mem (.zpY _) | .mem (.abs _) => 4
  | .mem (.absX _) | .mem (.absY _) => 5
  | .mem (.indX _) | .mem (.indY _) => 6

/-- The opcodes of Appendix 3 that have no instruction (30_encoding.md R54). -/
def undefinedOpcodes : List Byte :=
  [0x04#8, 0x0C#8, 0x14#8, 0x1C#8, 0x34#8, 0x52#8, 0x54#8, 0x5A#8, 0x5C#8, 0x72#8, 0x74#8, 0x7A#8, 0x7C#8, 0x89#8,
   0x92#8, 0x9C#8, 0x9E#8, 0xD2#8, 0xD4#8, 0xDA#8, 0xDC#8, 0xF2#8, 0xF4#8, 0xFA#8, 0xFC#8]

end Sys2Proof.Claims
end

