-- ==== Sys2Proof/Certificates/Slice0/Obligations.lean ====
section
/-! DEFINITION. The statements for the provers. Each docstring says which sentence of the spec it formalises; the forms, frames and
shorthands are in Forms.lean. Nothing is proved here. -/

open Sys2Proof Sys2Proof.Machine Sys2Proof.Claims

/-! ### Reset -/

/-- R29, R190: right after reset I = 1 and the run state is RUN, so no source is acceptable. That the
invariant holds (the memory's canonical form, one port per port of the product) is the model's own (assumption logs 2, 3). -/
def Obligations.ResetState : Prop :=
  flag State.reset.ps .i = true ∧ State.reset.run = .run ∧ State.reset.Inv ∧
  ∀ among, State.reset.acceptable among = none

/-- R190, R191: whatever the machine did before, a hardware reset leaves I = 1, RUN and every port in input mode, nothing acceptable,
and PC at the entry or read from the vector that the product gives; ROM bytes survive (D28), the invariant and the product are kept.
Nothing is said of A, X, Y, S and the other flags: they are free values. What a reset inside a run keeps is the model's reading of D28
(assumption log 7), and the invariant is its own (log 3). -/
def Obligations.HardwareResetState : Prop :=
  ∀ s : State, s.Inv →
    flag s.hardwareReset.ps .i = true ∧ s.hardwareReset.run = .run ∧ s.hardwareReset.Inv ∧
    s.hardwareReset.cfg = s.cfg ∧ (∀ among, s.hardwareReset.acceptable among = none) ∧
    (∀ n, n < s.ports.length → (s.hardwareReset.port n).direction = inputDirection (portConfig s.cfg n)) ∧
    (∀ a : Word, kindAt s.cfg a = .rom → s.hardwareReset.mem.read a.toNat = s.mem.read a.toNat) ∧
    (∀ pc, s.cfg.vecReset = .entry pc → s.hardwareReset.pc = pc) ∧
    (∀ v, s.cfg.vecReset = .vector v → s.hardwareReset.pc =
      concat (s.hardwareReset.busRead .vectorHigh (v + 1#16)) (s.hardwareReset.busRead .vectorLow v))

/-! ### Flags, bus, stack -/

/-- R4: N is bit 7 of the result, Z says whether it is zero, every other flag stays. -/
def Obligations.SetNZRule : Prop :=
  ∀ ps v : Byte, flag (setNZ ps v) .n = v.getLsbD 7 ∧ (flag (setNZ ps v) .z = true ↔ v = 0x00#8) ∧
    ∀ f, f ≠ .n → f ≠ .z → flag (setNZ ps v) f = flag ps f

/-- R5: a push stores at the address formed from S and then decrements S modulo 256; a pull increments S modulo 256 and reads at the
address formed from the new S. On a stack of plain RAM the pushed byte is at the address of S + 1 and a pull after a push gives it back
and restores S. The high byte of a stack address is 0x01, or the stack page selection bit of the moment where the product has one (R13,
R33). That S wraps modulo 256 is the spec's own inference from R13 (R5 marks it so, U11). -/
def Obligations.PushThenPull : Prop :=
  ∀ (s : State) (v : Byte) (acc : Access),
    (s.cfg.stackPage = .fixed01 → ∀ b, s.stackAddress b = concat 0x01#8 b) ∧
    (∀ a k, s.cfg.stackPage = .sps a k →
      ∀ b, s.stackAddress b = concat (if bitOf (s.mem.read a.toNat) k.toNat then 0x01#8 else 0x00#8) b) ∧
    s.push v = { s.busWrite (s.stackAddress s.sp) v with sp := s.sp - 1#8 } ∧ (s.push v).sp.toNat = (s.sp.toNat + 255) % 256 ∧
    s.pulled acc = s.busRead acc (s.stackAddress (s.sp + 1#8)) ∧ s.afterPull = { s with sp := s.sp + 1#8 } ∧
    s.afterPull.sp.toNat = (s.sp.toNat + 1) % 256 ∧
    (PlainStack s 1 → (s.push v).mem.read (stackByte s 0) = v ∧
    (s.push v).mem.read ((s.push v).stackAddress ((s.push v).sp + 1#8)).toNat = v ∧
    (∀ b, b ≠ stackByte s 0 → (s.push v).mem.read b = s.mem.read b) ∧
    (s.push v).pulled acc = v ∧ (s.push v).afterPull.sp = s.sp)

/-- R37, R171, R174, R207: what a program's write leaves, bit by bit. In RAM the byte written, in a register its writable bits, the others
as they were; a request bit that the product does not let a program set becomes written AND old. A register's write may besides set
request bits of the sources the product names for it, there or elsewhere, and changes nothing else. Readable bits read back as held.
ROM, unmapped addresses and devices keep what they had. The masks and lists are the model's form of MEMORY_MAP (assumption log 20),
setByWrite too (log 9); that a write to a device changes nothing the CPU sees is its choice (log 8). -/
def Obligations.BusWriteThenRead : Prop :=
  ∀ (s : State) (ea : Word) (v : Byte),
    (kindAt s.cfg ea = .ram → ∀ acc, (s.busWrite ea v).busRead acc ea = (s.busWrite ea v).mem.read ea.toNat ∧
      ∀ k, k < 8 →
        (¬ ClearOnly s.cfg ea k → bitOf ((s.busWrite ea v).mem.read ea.toNat) k = bitOf v k) ∧
        (ClearOnly s.cfg ea k →
          bitOf ((s.busWrite ea v).mem.read ea.toNat) k = (bitOf v k && bitOf (s.mem.read ea.toNat) k))) ∧
    (∀ b, kindAt s.cfg ea = .register b → ∀ k, k < 8 →
      (∀ acc, bitOf b.readMask k = true →
        bitOf ((s.busWrite ea v).busRead acc ea) k = bitOf ((s.busWrite ea v).mem.read ea.toNat) k) ∧
      ∀ w r : Bool, w = (if bitOf b.writeMask k then bitOf v k else bitOf (s.mem.read ea.toNat) k) →
        (¬ ClearOnly s.cfg ea k ∧ r = w) ∨ (ClearOnly s.cfg ea k ∧ r = (w && bitOf (s.mem.read ea.toNat) k)) →
        bitOf ((s.busWrite ea v).mem.read ea.toNat) k = r ∨
          (bitOf ((s.busWrite ea v).mem.read ea.toNat) k = true ∧ MayBeRequested s.cfg ea ea.toNat k)) ∧
    (kindAt s.cfg ea = .rom ∨ kindAt s.cfg ea = .unmapped ∨ kindAt s.cfg ea = .device → s.busWrite ea v = s) ∧
    (∀ a k, a ≠ ea.toNat → bitOf ((s.busWrite ea v).mem.read a) k = bitOf (s.mem.read a) k ∨
      (bitOf ((s.busWrite ea v).mem.read a) k = true ∧ MayBeRequested s.cfg ea a k))

/-- R39, R40: a write to a port register goes to the port latch alone; reading it back, an input-mode bit gives the pin, an output-mode
bit the latch, or the peripheral's output where the product says so. A write to a direction register goes to the direction alone.
Neither touches another port or the memory. Which value of a direction bit selects output, and which bits read the peripheral, are the
product's, in a form the model chose (assumption log 17). -/
def Obligations.PortWriteThenRead : Prop :=
  ∀ (s : State) (ea : Word) (n : Nat) (v : Byte), n < s.ports.length →
    (kindAt s.cfg ea = .port n →
      (∀ acc k, k < 8 → bitOf ((s.busWrite ea v).busRead acc ea) k =
        (if bitOf (s.port n).direction k = (portConfig s.cfg n).outputValue then
          (if bitOf (portConfig s.cfg n).peripheralMask k then bitOf (s.port n).peripheral k else bitOf v k)
        else bitOf (s.port n).pins k)) ∧
      (s.busWrite ea v).port n = { s.port n with latch := v }) ∧
    (kindAt s.cfg ea = .direction n → (s.busWrite ea v).port n = { s.port n with direction := v }) ∧
    (kindAt s.cfg ea = .port n ∨ kindAt s.cfg ea = .direction n →
      (∀ m, m ≠ n → (s.busWrite ea v).port m = s.port m) ∧ (s.busWrite ea v).mem = s.mem)

/-! ### Addressing modes -/

/-- R63 to R68, R48, D2, D3: the effective address as a number; zero-page sums wrap modulo 256, absolute sums modulo 65536. -/
def Obligations.DirectAddresses : Prop :=
  ∀ (s : State) (zz : Byte) (hhll : Word), ∃ z zx zy a ax ay : Word,
    (MemMode.zp zz).address s = .ok z ∧ z.toNat = zz.toNat ∧
    (MemMode.zpX zz).address s = .ok zx ∧ zx.toNat = (zz.toNat + s.x.toNat) % 256 ∧
    (MemMode.zpY zz).address s = .ok zy ∧ zy.toNat = (zz.toNat + s.y.toNat) % 256 ∧
    (MemMode.abs hhll).address s = .ok a ∧ a = hhll ∧
    (MemMode.absX hhll).address s = .ok ax ∧ ax.toNat = (hhll.toNat + s.x.toNat) % 65536 ∧
    (MemMode.absY hhll).address s = .ok ay ∧ ay.toNat = (hhll.toNat + s.y.toNat) % 65536

/-- R71, R72, R35, R49, D4: indirect X reads its pointer low byte first at zz + X modulo 256 and indirect Y adds Y to the pointer at zz
modulo 65536, where the two bytes of the pointer are stored bytes; the second byte of a pointer at 0x00FF is read from 0x0000 or
0x0100, or the access is refused, as the product says. -/
def Obligations.IndirectAddresses : Prop :=
  ∀ (s : State) (zz : Byte),
    (zz + s.x ≠ 0xFF#8 → Stored s (zeroPage (zz + s.x)) → Stored s (zeroPage (zz + s.x + 1#8)) →
      ∃ ea : Word, (MemMode.indX zz).address s = .ok ea ∧
        ea.toNat = (s.mem.read ((zz.toNat + s.x.toNat) % 256)).toNat +
          256 * (s.mem.read ((zz.toNat + s.x.toNat) % 256 + 1)).toNat) ∧
    (zz ≠ 0xFF#8 → Stored s (zeroPage zz) → Stored s (zeroPage (zz + 1#8)) →
      ∃ ea : Word, (MemMode.indY zz).address s = .ok ea ∧
        ea.toNat = ((s.mem.read zz.toNat).toNat + 256 * (s.mem.read (zz.toNat + 1)).toNat + s.y.toNat) % 65536) ∧
    (s.cfg.zeroPagePointerWrap = .refuse → s.zeroPagePointer 0xFF#8 = .error .zeroPagePointerPageEnd ∧
      (zz + s.x = 0xFF#8 → (MemMode.indX zz).address s = .error .zeroPagePointerPageEnd) ∧
      (MemMode.indY 0xFF#8).address s = .error .zeroPagePointerPageEnd) ∧
    (∀ h : Word, (s.cfg.zeroPagePointerWrap = .wrapInZeroPage ∧ h = 0x0000#16) ∨
        (s.cfg.zeroPagePointerWrap = .crossToPage1 ∧ h = 0x0100#16) →
      Stored s 0x00FF#16 → Stored s h →
      s.zeroPagePointer 0xFF#8 = .ok (concat (s.mem.read h.toNat) (s.mem.read 0x00FF)) ∧
      (zz + s.x = 0xFF#8 → (MemMode.indX zz).address s = .ok (concat (s.mem.read h.toNat) (s.mem.read 0x00FF))) ∧
      ∃ ea : Word, (MemMode.indY 0xFF#8).address s = .ok ea ∧
        ea.toNat = ((s.mem.read 0x00FF).toNat + 256 * (s.mem.read h.toNat).toNat + s.y.toNat) % 65536)

/-! ### Data transfer -/

/-- R81, R83, R84: LDA puts the operand into A, or into M(X) when T = 1 with A unchanged; LDX and LDY put it into the register whatever
T is; N and Z from it. -/
def Obligations.LoadResult : Prop :=
  ∀ (s : State) (o : Operand) (i : Instr) (v : Byte), o.read s = .ok v →
    (ldaForm o = some i → exec i s = .next (destination s i.length v (setNZ s.ps v))) ∧
    (ldxForm o = some i → exec i s = .next { s.advance i.length with x := v, ps := setNZ s.ps v }) ∧
    (ldyForm o = some i → exec i s = .next { s.advance i.length with y := v, ps := setNZ s.ps v })

/-- R85, R86, R87, R82: STA, STX, STY store the register at the effective address, LDM the immediate in zero page; no flag changes. -/
def Obligations.StoreResult : Prop :=
  ∀ (s : State) (m : MemMode) (i : Instr) (ea : Word), m.address s = .ok ea →
    (staForm m = some i → exec i s = .next ((s.advance i.length).busWrite ea s.a)) ∧
    (stxForm m = some i → exec i s = .next ((s.advance i.length).busWrite ea s.x)) ∧
    (styForm m = some i → exec i s = .next ((s.advance i.length).busWrite ea s.y)) ∧
    (∀ nn zz, exec (.ldm nn zz) s = .next ((s.advance 3).busWrite (zeroPage zz) nn))

/-- R88 to R93: the six register transfers, their opcodes and cycles; N and Z from the value, but TXS changes no flag. -/
def Obligations.TransferResult : Prop :=
  ∀ s : State,
    (encode .tax = [0xAA#8] ∧ cyclesOf .tax s = 2 ∧
      exec .tax s = .next { s with pc := s.pc + 1#16, x := s.a, ps := setNZ s.ps s.a }) ∧
    (encode .txa = [0x8A#8] ∧ cyclesOf .txa s = 2 ∧
      exec .txa s = .next { s with pc := s.pc + 1#16, a := s.x, ps := setNZ s.ps s.x }) ∧
    (encode .tay = [0xA8#8] ∧ cyclesOf .tay s = 2 ∧
      exec .tay s = .next { s with pc := s.pc + 1#16, y := s.a, ps := setNZ s.ps s.a }) ∧
    (encode .tya = [0x98#8] ∧ cyclesOf .tya s = 2 ∧
      exec .tya s = .next { s with pc := s.pc + 1#16, a := s.y, ps := setNZ s.ps s.y }) ∧
    (encode .tsx = [0xBA#8] ∧ cyclesOf .tsx s = 2 ∧
      exec .tsx s = .next { s with pc := s.pc + 1#16, x := s.sp, ps := setNZ s.ps s.sp }) ∧
    (encode .txs = [0x9A#8] ∧ cyclesOf .txs s = 2 ∧ exec .txs s = .next { s with pc := s.pc + 1#16, sp := s.x })

/-- R94 to R97: PHA and PHP store A and PS at the address S indicates and decrement S; PLA and PLP increment S and read there; PLA
sets N and Z, PLP loads all eight flags; opcodes and cycles with them. That PHP pushes all eight bits as they are, B and T included, is
the spec's own decision D17 (R95; assumption log 15). -/
def Obligations.StackInstructions : Prop :=
  ∀ s : State,
    exec .pha s = .next { (s.advance 1).busWrite (s.stackAddress s.sp) s.a with sp := s.sp - 1#8 } ∧
    exec .php s = .next { (s.advance 1).busWrite (s.stackAddress s.sp) s.ps with sp := s.sp - 1#8 } ∧
    exec .pla s = .next { s.advance 1 with
      sp := s.sp + 1#8, a := s.busRead .pullFirst (s.stackAddress (s.sp + 1#8)),
      ps := setNZ s.ps (s.busRead .pullFirst (s.stackAddress (s.sp + 1#8))) } ∧
    exec .plp s = .next { s.advance 1 with
      sp := s.sp + 1#8, ps := s.busRead .pullFirst (s.stackAddress (s.sp + 1#8)) } ∧
    encode .pha = [0x48#8] ∧ encode .php = [0x08#8] ∧ encode .pla = [0x68#8] ∧ encode .plp = [0x28#8] ∧
    cyclesOf .pha s = 3 ∧ cyclesOf .php s = 3 ∧ cyclesOf .pla s = 4 ∧ cyclesOf .plp s = 4

/-! ### Arithmetic -/

/-- R100, R111: binary ADC. C when the sum exceeds 255; V when the operands have one sign and the result the other; N and Z of the
8-bit result; T, B, D, I kept; A or M(X) receives the result. -/
def Obligations.AdcBinaryResult : Prop :=
  ∀ (s : State) (o : Operand) (i : Instr) (m : Byte), adcForm o = some i → o.read s = .ok m → flag s.ps .d = false →
    ∃ r ps, exec i s = .next (destination s i.length r ps) ∧
      r.toNat = ((first s).toNat + m.toNat + (flag s.ps .c).toNat) % 256 ∧
      flag ps .c = decide ((first s).toNat + m.toNat + (flag s.ps .c).toNat > 255) ∧
      flag ps .v = (bitOf (first s) 7 == bitOf m 7 && bitOf r 7 != bitOf (first s) 7) ∧
      flag ps .n = bitOf r 7 ∧ flag ps .z = (r == 0x00#8) ∧
      ∀ f, f = .t ∨ f = .b ∨ f = .d ∨ f = .i → flag ps f = flag s.ps f

/-- R101, R111: binary SBC with borrow-in 1 - C. C when the difference is at least 0; V when the operands have different signs and
the result not the sign of the first; N, Z of the result; T, B, D, I kept. -/
def Obligations.SbcBinaryResult : Prop :=
  ∀ (s : State) (o : Operand) (i : Instr) (m : Byte), sbcForm o = some i → o.read s = .ok m → flag s.ps .d = false →
    ∃ r ps, exec i s = .next (destination s i.length r ps) ∧
      r.toNat = ((first s).toNat + 256 - m.toNat - (!flag s.ps .c).toNat) % 256 ∧
      flag ps .c = decide (m.toNat + (!flag s.ps .c).toNat ≤ (first s).toNat) ∧
      flag ps .v = (bitOf (first s) 7 != bitOf m 7 && bitOf r 7 != bitOf (first s) 7) ∧
      flag ps .n = bitOf r 7 ∧ flag ps .z = (r == 0x00#8) ∧
      ∀ f, f = .t ∨ f = .b ∨ f = .d ∨ f = .i → flag ps f = flag s.ps f

/-- R110, U4, U5: decimal ADC and SBC on packed decimal operands give the packed decimal result modulo 100 and C as the carry or the
absence of a borrow; nothing is said of N, V, Z (they are free values). With an operand that is not packed decimal the instruction
still completes, with some byte in A or M(X) (free values, assumption log 5). T, B, D, I are kept in every case. -/
def Obligations.DecimalResult : Prop :=
  ∀ (s : State) (o : Operand) (i : Instr) (m : Byte), o.read s = .ok m → flag s.ps .d = true →
    adcForm o = some i ∨ sbcForm o = some i →
    ∃ r ps, exec i s = .next (destination s i.length r ps) ∧
      (∀ f, f = .t ∨ f = .b ∨ f = .d ∨ f = .i → flag ps f = flag s.ps f) ∧
      (twoDigits (first s) → twoDigits m → twoDigits r ∧
        (adcForm o = some i →
          decimal r = (decimal (first s) + decimal m + (flag s.ps .c).toNat) % 100 ∧
          flag ps .c = decide (decimal (first s) + decimal m + (flag s.ps .c).toNat > 99)) ∧
        (sbcForm o = some i →
          decimal r = (decimal (first s) + 100 - decimal m - (!flag s.ps .c).toNat) % 100 ∧
          flag ps .c = decide (decimal m + (!flag s.ps .c).toNat ≤ decimal (first s))))

/-- R102 to R107: INC and DEC add or subtract 1 modulo 256 in A or at the effective address, INX, DEX, INY, DEY in X or Y; N and Z of the
result, C and V kept; opcodes and cycles of the register forms. -/
def Obligations.IncDecResult : Prop :=
  ∀ s : State,
    (encode .inx = [0xE8#8] ∧ encode .dex = [0xCA#8] ∧ encode .iny = [0xC8#8] ∧ encode .dey = [0x88#8] ∧
      cyclesOf .inx s = 2 ∧ cyclesOf .dex s = 2 ∧ cyclesOf .iny s = 2 ∧ cyclesOf .dey s = 2) ∧
    (∃ r, exec .incA s = .next { s.advance 1 with a := r, ps := setNZ s.ps r } ∧ r.toNat = (s.a.toNat + 1) % 256) ∧
    (∃ r, exec .decA s = .next { s.advance 1 with a := r, ps := setNZ s.ps r } ∧ r.toNat = (s.a.toNat + 255) % 256) ∧
    (∃ r, exec .inx s = .next { s.advance 1 with x := r, ps := setNZ s.ps r } ∧ r.toNat = (s.x.toNat + 1) % 256) ∧
    (∃ r, exec .dex s = .next { s.advance 1 with x := r, ps := setNZ s.ps r } ∧ r.toNat = (s.x.toNat + 255) % 256) ∧
    (∃ r, exec .iny s = .next { s.advance 1 with y := r, ps := setNZ s.ps r } ∧ r.toNat = (s.y.toNat + 1) % 256) ∧
    (∃ r, exec .dey s = .next { s.advance 1 with y := r, ps := setNZ s.ps r } ∧ r.toNat = (s.y.toNat + 255) % 256) ∧
    (∀ (m : MemMode) (i : Instr) (ea : Word), m.address s = .ok ea →
      (incForm m = some i → ∃ r, r.toNat = ((s.busRead .data ea).toNat + 1) % 256 ∧
        exec i s = .next { (s.advance i.length).busWrite ea r with ps := setNZ s.ps r }) ∧
      (decForm m = some i → ∃ r, r.toNat = ((s.busRead .data ea).toNat + 255) % 256 ∧
        exec i s = .next { (s.advance i.length).busWrite ea r with ps := setNZ s.ps r }))

/-- R108: MUL is 62 zz, 15 cycles. Where the product has it, it pushes the upper byte of the unsigned product of A and the byte of the
zero page at zz + X modulo 256, decrements S and leaves the lower byte in A; PS stays; T and D play no part. That the operands are
unsigned is the spec's own decision D25 (R108 (4); assumption log 15). -/
def Obligations.MulResult : Prop :=
  ∀ (s : State) (zz : Byte), encode (.mulZpX zz) = [0x62#8, zz] ∧ cyclesOf (.mulZpX zz) s = 15 ∧
    (s.cfg.hasMulDiv = false → exec (.mulZpX zz) s = .refused (.absentInstruction "MUL")) ∧
    (s.cfg.hasMulDiv = true → ∃ hi lo : Byte, hi.toNat * 256 + lo.toNat = s.a.toNat * (s.busRead .data (zeroPage (zz + s.x))).toNat ∧
      exec (.mulZpX zz) s =
        .next { (s.advance 2).busWrite (s.stackAddress s.sp) hi with sp := s.sp - 1#8, a := lo })

/-- R109, R198, U6: DIV is E2 zz, 16 cycles. Where the product has it, it pushes one byte, decrements S and leaves PS; T and D play no
part. When the dividend's upper byte is below A, A takes the quotient and the pushed byte is the one's complement of the remainder;
otherwise (A = 0, or a quotient above 255, neither detected) both are some byte. A dividend whose second byte cannot be read (R49) is
refused. That the operands are unsigned, that S and one byte are written on divisor 0 or overflow too, and the refusal are the spec's own
decisions D25, D24 and D4 (assumption log 15). -/
def Obligations.DivResult : Prop :=
  ∀ (s : State) (zz : Byte), encode (.divZpX zz) = [0xE2#8, zz] ∧ cyclesOf (.divZpX zz) s = 16 ∧
    (s.cfg.hasMulDiv = false → exec (.divZpX zz) s = .refused (.absentInstruction "DIV")) ∧
    (∀ r, s.cfg.hasMulDiv = true → secondByte s.cfg.zeroPagePointerWrap (zz + s.x) = .error r → exec (.divZpX zz) s = .refused r) ∧
    ∀ (h : Word) (lo hi : Byte), s.cfg.hasMulDiv = true →
    secondByte s.cfg.zeroPagePointerWrap (zz + s.x) = .ok h →
    lo = s.busRead .dividendLow (zeroPage (zz + s.x)) → hi = s.busRead .dividendHigh h →
    ∃ q p : Byte, exec (.divZpX zz) s =
        .next { (s.advance 2).busWrite (s.stackAddress s.sp) p with sp := s.sp - 1#8, a := q } ∧
      (hi.toNat < s.a.toNat →
        q.toNat * s.a.toNat + (255 - p.toNat) = hi.toNat * 256 + lo.toNat ∧ 255 - p.toNat < s.a.toNat)

/-! ### Logic, test, compare -/

/-- R112 to R114: AND, ORA, EOR work bit by bit on A or M(X) and M; N and Z of the result. -/
def Obligations.LogicResult : Prop :=
  ∀ (s : State) (o : Operand) (i : Instr) (m : Byte), o.read s = .ok m →
    (andForm o = some i → ∃ r, exec i s = .next (destination s i.length r (setNZ s.ps r)) ∧
      ∀ k, bitOf r k = (bitOf (first s) k && bitOf m k)) ∧
    (oraForm o = some i → ∃ r, exec i s = .next (destination s i.length r (setNZ s.ps r)) ∧
      ∀ k, bitOf r k = (bitOf (first s) k || bitOf m k)) ∧
    (eorForm o = some i → ∃ r, exec i s = .next (destination s i.length r (setNZ s.ps r)) ∧
      ∀ k, bitOf r k = (bitOf (first s) k ^^ bitOf m k))

/-- R115, R126: COM (44 zz, 5 cycles) complements a zero-page byte and sets N and Z; RRF (82 zz, 8 cycles) exchanges its nibbles and
leaves PS. -/
def Obligations.ComRrfResult : Prop :=
  ∀ (s : State) (zz : Byte),
    encode (.comZp zz) = [0x44#8, zz] ∧ cyclesOf (.comZp zz) s = 5 ∧ encode (.rrfZp zz) = [0x82#8, zz] ∧ cyclesOf (.rrfZp zz) s = 8 ∧
    (∃ r : Byte, r.toNat = 255 - (s.busRead .data (zeroPage zz)).toNat ∧
      exec (.comZp zz) s = .next { (s.advance 2).busWrite (zeroPage zz) r with ps := setNZ s.ps r }) ∧
    (∃ r : Byte, r.toNat = (s.busRead .data (zeroPage zz)).toNat % 16 * 16 + (s.busRead .data (zeroPage zz)).toNat / 16 ∧
      exec (.rrfZp zz) s = .next ((s.advance 2).busWrite (zeroPage zz) r))

/-- R116, R117: BIT sets N and V from bits 7 and 6 of M and Z from A AND M; TST sets N and Z from M; nothing else but PC changes;
opcodes and cycles with them. -/
def Obligations.BitTstResult : Prop :=
  ∀ s : State,
    (∀ zz, encode (.bitZp zz) = [0x24#8, zz] ∧ cyclesOf (.bitZp zz) s = 3 ∧
      encode (.tstZp zz) = [0x64#8, zz] ∧ cyclesOf (.tstZp zz) s = 3) ∧
    (∀ hhll, encode (.bitAbs hhll) = [0x2C#8, lowByte hhll, highByte hhll] ∧ cyclesOf (.bitAbs hhll) s = 4) ∧
    (∀ (m : MemMode) (i : Instr) (ea : Word), bitForm m = some i → m.address s = .ok ea →
      ∃ ps, exec i s = .next { s.advance i.length with ps := ps } ∧
        flag ps .n = bitOf (s.busRead .data ea) 7 ∧ flag ps .v = bitOf (s.busRead .data ea) 6 ∧
        flag ps .z = (s.a &&& s.busRead .data ea == 0x00#8) ∧
        ∀ f, f = .t ∨ f = .b ∨ f = .d ∨ f = .i ∨ f = .c → flag ps f = flag s.ps f) ∧
    (∀ zz, exec (.tstZp zz) s = .next { s.advance 2 with ps := setNZ s.ps (s.busRead .data (zeroPage zz)) })

/-- R118 to R120: CMP compares A or M(X), CPX X, CPY Y with M. C says that the register is not below M, Z that they are equal, N is
bit 7 of the difference; V, T, B, D, I, the registers and the memory stay. -/
def Obligations.CompareResult : Prop :=
  ∀ (s : State) (o : Operand) (i : Instr) (m d : Byte), o.read s = .ok m →
    (cmpForm o = some i ∧ d = first s) ∨ (cpxForm o = some i ∧ d = s.x) ∨ (cpyForm o = some i ∧ d = s.y) →
    ∃ ps, exec i s = .next { s.advance i.length with ps := ps } ∧
      flag ps .c = decide (m.toNat ≤ d.toNat) ∧ flag ps .z = decide (d = m) ∧ flag ps .n = bitOf (d - m) 7 ∧
      ∀ f, f = .v ∨ f = .t ∨ f = .b ∨ f = .d ∨ f = .i → flag ps f = flag s.ps f

/-! ### Shifts, bits, flags -/

/-- R122 to R125: ASL, LSR, ROL, ROR on A or memory: the result as a number, C the bit shifted out, N and Z of the result (so N is 0
after LSR); V, T, B, D, I kept. -/
def Obligations.ShiftResult : Prop :=
  ∀ (s : State) (k : Shift),
    (∃ r ps, exec (shiftFormA k) s = .next { s.advance 1 with a := r, ps := ps } ∧
      r.toNat = shiftResult k s.a.toNat (flag s.ps .c) ∧ ps = setNZC s.ps r (shiftCarry k s.a) ∧
      (k = .lsr → flag ps .n = false)) ∧
    (∀ (m : MemMode) (i : Instr) (ea : Word), shiftForm k m = some i → m.address s = .ok ea →
      ∃ r ps, exec i s = .next { (s.advance i.length).busWrite ea r with ps := ps } ∧
        r.toNat = shiftResult k (s.busRead .data ea).toNat (flag s.ps .c) ∧
        ps = setNZC s.ps r (shiftCarry k (s.busRead .data ea)) ∧ (k = .lsr → flag ps .n = false))

/-- R128, R129: CLB and SEB make bit i of A or of a zero-page byte 0 or 1 and write the whole byte; the other bits and PS stay. Their
opcodes have i in the top three bits; 2 cycles on A, 5 on memory. -/
def Obligations.BitChangeResult : Prop :=
  ∀ (s : State) (i : BitNumber) (zz : Byte) (b : Bool),
    encode (if b then .sebA i else .clbA i) = [BitVec.ofNat 8 (0x20 * i.toNat + if b then 0x0B else 0x1B)] ∧
    encode (if b then .sebZp i zz else .clbZp i zz) = [BitVec.ofNat 8 (0x20 * i.toNat + if b then 0x0F else 0x1F), zz] ∧
    cyclesOf (if b then .sebA i else .clbA i) s = 2 ∧ cyclesOf (if b then .sebZp i zz else .clbZp i zz) s = 5 ∧
    (∃ r, exec (if b then .sebA i else .clbA i) s = .next { s.advance 1 with a := r } ∧
      ∀ k, k < 8 → bitOf r k = if k = i.toNat then b else bitOf s.a k) ∧
    (∃ r, exec (if b then .sebZp i zz else .clbZp i zz) s = .next ((s.advance 2).busWrite (zeroPage zz) r) ∧
      ∀ k, k < 8 → bitOf r k = if k = i.toNat then b else bitOf (s.busRead .data (zeroPage zz)) k)

/-- R130 to R138: the nine flag instructions, their opcodes and cycles: the named flag takes the named value, the other seven flags
and everything but PC stay. -/
def Obligations.FlagInstructions : Prop :=
  ∀ (s : State) (i : Instr) (op : Byte) (f : Flag) (b : Bool),
    (i, op, f, b) ∈ [(Instr.clc, 0x18#8, Flag.c, false), (.sec, 0x38#8, .c, true), (.cld, 0xD8#8, .d, false),
      (.sed, 0xF8#8, .d, true), (.cli, 0x58#8, .i, false), (.sei, 0x78#8, .i, true), (.clt, 0x12#8, .t, false),
      (.set, 0x32#8, .t, true), (.clv, 0xB8#8, .v, false)] →
    encode i = [op] ∧ cyclesOf i s = 2 ∧
    ∃ ps, exec i s = .next { s with pc := s.pc + 1#16, ps := ps } ∧ flag ps f = b ∧ ∀ g, g ≠ f → flag ps g = flag s.ps g

/-! ### Jumps, branches, returns -/

/-- R140, R197, R73: the three forms of JMP, their bytes and cycles. The indirect form reads the low byte at hhll and the high byte at
hhll + 1, and is refused in every state when ll is 0xFF; the zero page indirect form reads the second byte where R49 says. That the
second byte of a pointer at 0xFF is read at 0x0000 or 0x0100, or the access refused, as ZP_PTR_WRAP says, is the spec's own decision D4
(R49), and so is the refusal of ll = 0xFF, D23 (assumption log 15). -/
def Obligations.JmpResult : Prop :=
  ∀ (s : State) (hhll h : Word) (zz : Byte) (r : Refusal),
    (encode (.jmpAbs hhll) = [0x4C#8, lowByte hhll, highByte hhll] ∧ encode (.jmpInd hhll) = [0x6C#8, lowByte hhll, highByte hhll] ∧
      encode (.jmpZpInd zz) = [0xB2#8, zz] ∧ cyclesOf (.jmpAbs hhll) s = 3 ∧ cyclesOf (.jmpInd hhll) s = 5 ∧
      cyclesOf (.jmpZpInd zz) s = 4) ∧
    exec (.jmpAbs hhll) s = .next { s with pc := hhll } ∧
    (lowByte hhll ≠ 0xFF#8 → exec (.jmpInd hhll) s =
      .next { s with pc := concat (s.busRead .pointerHigh (hhll + 1#16)) (s.busRead .pointerLow hhll) }) ∧
    (lowByte hhll = 0xFF#8 → exec (.jmpInd hhll) s = .refused .jmpIndirectPageEnd) ∧
    (secondByte s.cfg.zeroPagePointerWrap zz = .ok h → exec (.jmpZpInd zz) s =
      .next { s with pc := concat (s.busRead .pointerHigh h) (s.busRead .pointerLow (zeroPage zz)) }) ∧
    (secondByte s.cfg.zeroPagePointerWrap zz = .error r → exec (.jmpZpInd zz) s = .refused r)

/-- R142: JSR pushes the address of its last byte, high byte first, and goes to its target, which the zero page indirect form reads
after the pushes (D12); no flag changes. Stated for a stack of plain RAM in either stack page; the pushes in general are in MemoryFrame
and RegisterFrame. -/
def Obligations.JsrResult : Prop :=
  ∀ (s : State) (i : Instr), PlainStack s 2 →
    (∃ w, i = .jsrAbs w ∨ (i = .jsrSp w ∧ i.wellFormed = true)) ∨
      (∃ zz, i = .jsrZpInd zz ∧ zz ≠ 0xFF#8 ∧ Stored s (zeroPage zz) ∧ Stored s (zeroPage (zz + 1#8))) →
    ∃ t, exec i s = .next t ∧ (∀ w, i = .jsrAbs w ∨ i = .jsrSp w → t.pc = w) ∧
      (∀ zz, i = .jsrZpInd zz → t.pc = concat (t.mem.read (zz.toNat + 1)) (t.mem.read zz.toNat)) ∧
      t.sp = s.sp - 2#8 ∧ t.ps = s.ps ∧ t.a = s.a ∧ t.x = s.x ∧ t.y = s.y ∧
      t.mem.read (stackByte s 0) = highByte (s.pc + BitVec.ofNat 16 i.length - 1#16) ∧
      t.mem.read (stackByte s 1) = lowByte (s.pc + BitVec.ofNat 16 i.length - 1#16) ∧
      ∀ b, b ≠ stackByte s 0 → b ≠ stackByte s 1 → t.mem.read b = s.mem.read b

/-- R141, R145 to R152, R155: BRA and the eight flag branches, their opcodes and cycles. The target is the address after the
instruction plus the signed displacement, modulo 65536; nothing but PC changes. -/
def Obligations.BranchResult : Prop :=
  ∀ (s : State) (rr : Byte) (i : Instr) (op : Byte) (taken : Bool),
    (i, op, taken) ∈ [(Instr.bra rr, 0x80#8, true), (.bcc rr, 0x90#8, !flag s.ps .c), (.bcs rr, 0xB0#8, flag s.ps .c),
      (.bne rr, 0xD0#8, !flag s.ps .z), (.beq rr, 0xF0#8, flag s.ps .z), (.bpl rr, 0x10#8, !flag s.ps .n),
      (.bmi rr, 0x30#8, flag s.ps .n), (.bvc rr, 0x50#8, !flag s.ps .v), (.bvs rr, 0x70#8, flag s.ps .v)] →
    encode i = [op, rr] ∧ cyclesOf i s = (if taken then 4 else 2) ∧
    ∃ pc : Word, exec i s = .next { s with pc := pc } ∧
      (taken = false → pc = s.pc + 2#16) ∧
      (taken = true → (pc.toNat : Int) = ((s.pc.toNat : Int) + 2 + rr.toInt) % 65536)

/-- R143, R144, R78, R79: BBC and BBS branch on bit i of A, or of a zero-page byte as R195 lets them see it; nothing but PC changes.
Their opcodes have i in the top three bits; 4 or 5 cycles, 2 more when the branch is taken. -/
def Obligations.BitBranchResult : Prop :=
  ∀ (s : State) (i : BitNumber) (zz rr : Byte) (b : Bool),
    encode (if b then .bbsA i rr else .bbcA i rr) = [BitVec.ofNat 8 (0x20 * i.toNat + if b then 0x03 else 0x13), rr] ∧
    encode (if b then .bbsZp i zz rr else .bbcZp i zz rr) = [BitVec.ofNat 8 (0x20 * i.toNat + if b then 0x07 else 0x17), zz, rr] ∧
    cyclesOf (if b then .bbsA i rr else .bbcA i rr) s = (if bitOf s.a i.toNat = b then 6 else 4) ∧
    cyclesOf (if b then .bbsZp i zz rr else .bbcZp i zz rr) s = (if s.testedBit zz i = b then 7 else 5) ∧
    exec (if b then .bbsA i rr else .bbcA i rr) s =
      .next { s with pc := if bitOf s.a i.toNat = b then s.pc + 2#16 + rr.signExtend 16 else s.pc + 2#16 } ∧
    exec (if b then .bbsZp i zz rr else .bbcZp i zz rr) s =
      .next { s with pc := if s.testedBit zz i = b then s.pc + 3#16 + rr.signExtend 16 else s.pc + 3#16 } ∧
    (isRequestBit s.cfg (zeroPage zz) i.toNat = false ∨ s.lag = [] →
      s.testedBit zz i = bitOf (s.busRead .data (zeroPage zz)) i.toNat)

/-- R153, R154: RTI (40) pulls PS, PCL, PCH and adds nothing; RTS (60) pulls PCL, PCH and adds 1; 6 cycles each. -/
def Obligations.ReturnResult : Prop :=
  ∀ s : State,
    encode .rti = [0x40#8] ∧ encode .rts = [0x60#8] ∧ cyclesOf .rti s = 6 ∧ cyclesOf .rts s = 6 ∧
    exec .rti s = .next { s with
      sp := s.sp + 3#8, ps := s.busRead .pullFirst (s.stackAddress (s.sp + 1#8)),
      pc := concat (s.busRead .pullThird (s.stackAddress (s.sp + 3#8)))
        (s.busRead .pullSecond (s.stackAddress (s.sp + 2#8))) } ∧
    exec .rts s = .next { s with
      sp := s.sp + 2#8,
      pc := concat (s.busRead .pullSecond (s.stackAddress (s.sp + 2#8)))
        (s.busRead .pullFirst (s.stackAddress (s.sp + 1#8))) + 1#16 }

/-- R142, R154: RTS right after any JSR goes to the instruction after the JSR with S restored and A, X, Y, PS as they were. -/
def Obligations.CallThenReturn : Prop :=
  ∀ (s t : State) (i : Instr), PlainStack s 2 → (∃ w, i = .jsrAbs w ∨ i = .jsrSp w) ∨ (∃ zz, i = .jsrZpInd zz) →
    exec i s = .next t →
    ∃ u, exec .rts t = .next u ∧ u.pc = s.pc + BitVec.ofNat 16 i.length ∧ u.sp = s.sp ∧
      u.a = s.a ∧ u.x = s.x ∧ u.y = s.y ∧ u.ps = s.ps

/-! ### Software interrupt, clock control -/

/-- R157: BRK pushes its address + 2, high byte first, then PS with B = 1; B and I become 1, the other flags stay; PC comes from the
vector of the highest-priority masked pending source if there is one (R177), else from VEC_BRK, or from the vector of the
lowest-priority source where BRK_SHARES_VECTOR says so (R3, R157 (b)); no request bit changes (D26). That the masked source is decided on
the state before the pushes, that the lowest priority is the last of the list, and that VEC_BRK serves where the vector is shared and
there is no source, are the model's (assumption logs 12, 14). -/
def Obligations.BrkResult : Prop :=
  ∀ (s : State) (v : Word), PlainStack s 3 → StoredVector s v →
    (s.maskedPending = none ∧ (s.cfg.brkSharesVector = false ∨ s.cfg.irqSources = []) ∧ v = s.cfg.vecBrk) ∨
      (s.maskedPending = none ∧ s.cfg.brkSharesVector = true ∧ ∃ higher q, s.cfg.irqSources = higher ++ [q] ∧ v = q.vector) ∨
      (∃ q, s.maskedPending = some q ∧ v = q.vector) →
    ∃ t, exec .brk s = .next t ∧ t.sp = s.sp - 3#8 ∧ t.a = s.a ∧ t.x = s.x ∧ t.y = s.y ∧ t.run = s.run ∧
      t.mem.read (stackByte s 0) = highByte (s.pc + 2#16) ∧ t.mem.read (stackByte s 1) = lowByte (s.pc + 2#16) ∧
      t.mem.read (stackByte s 2) = putFlag s.ps .b true ∧
      (∀ b, b ≠ stackByte s 0 → b ≠ stackByte s 1 → b ≠ stackByte s 2 → t.mem.read b = s.mem.read b) ∧
      (∀ f, flag t.ps f = if f = .b ∨ f = .i then true else flag s.ps f) ∧
      t.pc = concat (t.mem.read (v + 1#16).toNat) (t.mem.read v.toNat) ∧
      ∀ q ∈ s.cfg.irqSources, t.requested q = s.requested q

/-- R177, R175: with I = 1, the source a BRK goes to is the first of the list with request and enable bits both 1; with I = 0, or
none pending, there is none. Priority as the order of the list is the model's form (assumption log 12). -/
def Obligations.BrkMaskedSource : Prop :=
  ∀ s : State,
    (flag s.ps .i = false → s.maskedPending = none) ∧
    (∀ pre q post, flag s.ps .i = true → s.cfg.irqSources = pre ++ q :: post →
      (∀ p ∈ pre, s.requested p = false ∨ s.enabled p = false) →
      s.requested q = true → s.enabled q = true → s.maskedPending = some q) ∧
    ((∀ q ∈ s.cfg.irqSources, s.requested q = false ∨ s.enabled q = false) → s.maskedPending = none)

/-- R158, R159, R160: WIT stops the internal clock, STP the oscillation where the product's STP is valid and is a NOP where it is
not, NOP only increases PC; opcodes and cycles with them. That an invalid STP is exactly one NOP is the spec's own choice C1 and
decision D18 (assumption log 15). -/
def Obligations.WitStpNopResult : Prop :=
  ∀ s : State,
    encode .wit = [0xC2#8] ∧ encode .stp = [0x42#8] ∧ encode .nop = [0xEA#8] ∧
    cyclesOf .wit s = 2 ∧ cyclesOf .stp s = 2 ∧ cyclesOf .nop s = 2 ∧
    (s.cfg.hasWit = true → exec .wit s = .next { s with pc := s.pc + 1#16, run := .wait }) ∧
    (s.cfg.stpValid = true → exec .stp s = .next { s with pc := s.pc + 1#16, run := .stop }) ∧
    (s.cfg.stpValid = false → exec .stp s = exec .nop s) ∧
    exec .nop s = .next { s with pc := s.pc + 1#16 }

/-! ### What every instruction does and leaves alone -/

/-- R180, R54, R49, R197: every instruction executes, unless the spec refuses it, and then it is refused by that name; no instruction
faults. The cases of refusal are those of `refusalOf`. -/
def Obligations.ExecutesUnlessRefused : Prop :=
  ∀ (i : Instr) (s : State),
    (refusalOf i s = none → ∃ t, exec i s = .next t) ∧ (∀ r, refusalOf i s = some r → exec i s = .refused r)

/-- R11, R12, R13: A, X, Y and S change only by the instructions those rules list; an instruction changes nothing of the product,
the outside, the hazards, the free-value index or the cycle counter; only WIT and STP change the run state. -/
def Obligations.RegisterFrame : Prop :=
  ∀ (i : Instr) (s t : State), exec i s = .next t →
    (writesA i s = false → t.a = s.a) ∧ (writesX i = false → t.x = s.x) ∧ (writesY i = false → t.y = s.y) ∧
    (writesS i = false → t.sp = s.sp) ∧ (i ≠ .wit → i ≠ .stp → t.run = s.run) ∧
    t.cfg = s.cfg ∧ t.outside = s.outside ∧ t.hazard = s.hazard ∧ t.lag = s.lag ∧ t.forced = s.forced ∧
    t.draws = s.draws ∧ t.cycles = s.cycles

/-- R24: every flag an instruction does not write, by the table of that rule, stays as it was. -/
def Obligations.FlagFrame : Prop :=
  ∀ (i : Instr) (s t : State) (f : Flag), exec i s = .next t → writesFlag i f = false → flag t.ps f = flag s.ps f

/-- R38, R60 and the instruction rules: every byte of memory outside the addresses an instruction stores to reads as before, and so
does every port whose register is none of them; an instruction that stores nothing leaves all of memory and every port. A store to a
register that may set request bits (R207) may besides set those, and no other bit. -/
def Obligations.MemoryFrame : Prop :=
  ∀ (i : Instr) (s t : State), exec i s = .next t →
    (∀ b : Nat, (∀ ea ∈ storedAddresses i s, b ≠ ea.toNat ∧ b ∉ sideAddresses s.cfg ea) → t.mem.read b = s.mem.read b) ∧
    (∀ b k : Nat, (∀ ea ∈ storedAddresses i s, b ≠ ea.toNat) → bitOf (t.mem.read b) k = bitOf (s.mem.read b) k ∨
      (bitOf (t.mem.read b) k = true ∧ ∃ ea ∈ storedAddresses i s, MayBeRequested s.cfg ea b k)) ∧
    (∀ n : Nat, (∀ ea ∈ storedAddresses i s, kindAt s.cfg ea ≠ .port n ∧ kindAt s.cfg ea ≠ .direction n) →
      t.port n = s.port n)

/-! ### Encoding -/

/-- R50 to R53: decoding the bytes of a well-formed instruction gives the instruction back, whatever bytes follow. -/
def Obligations.DecodeEncode : Prop :=
  ∀ (i : Instr) (rest : List Byte), i.wellFormed = true → decode (encode i ++ rest) = .ok (i, rest)

/-- R50 to R53: bytes that decode are the encoding of the instruction they decode to, followed by the rest; the instruction is well
formed unless it is the forbidden JMP ($xxFF). -/
def Obligations.EncodeDecode : Prop :=
  ∀ (bs rest : List Byte) (i : Instr), decode bs = .ok (i, rest) →
    encode i ++ rest = bs ∧ (i.wellFormed = true ∨ ∃ hh : Byte, i = .jmpInd (concat hh 0xFF#8))

/-- R54: exactly the 25 undefined opcodes are refused by name; MUL and DIV are refused on a product without them and WIT on a product
without it; an invalid STP acts as NOP. -/
def Obligations.UndefinedOpcodes : Prop :=
  (∀ (op : Byte) (rest : List Byte), decode (op :: rest) = .error (.undefinedOpcode op) ↔ op ∈ undefinedOpcodes) ∧
  undefinedOpcodes.length = 25 ∧
  (∀ s : State, RunsInstruction s.arrive → s.arrive.busRead .opcode s.arrive.pc ∈ undefinedOpcodes →
    step s = .refused (.undefinedOpcode (s.arrive.busRead .opcode s.arrive.pc))) ∧
  (∀ (s : State) (zz : Byte), s.cfg.hasMulDiv = false →
    exec (.mulZpX zz) s = .refused (.absentInstruction "MUL") ∧ exec (.divZpX zz) s = .refused (.absentInstruction "DIV")) ∧
  (∀ s : State, s.cfg.hasWit = false → exec .wit s = .refused (.absentInstruction "WIT")) ∧
  (∀ s : State, s.cfg.stpValid = false → exec .stp s = exec .nop s)

/-- R55: the opcode alone says how many bytes the instruction has. The table of lengths is the spec's own inference from R52 and R51 (R55
marks it so: the source's shading is lost). -/
def Obligations.LengthByOpcode : Prop :=
  ∀ (op b1 b2 : Byte) (i : Instr), decodeOpcode op b1 b2 = some i → i.length = opcodeLength op

/-- Words written out from the spec's own examples (95_test_vectors.md section 1) decode to the instructions they stand for. -/
def Obligations.SampleWords : Prop :=
  decode [0x2A#8] = .ok (.rolA, []) ∧ decode [0xB6#8, 0x62#8] = .ok (.ldxZpY 0x62#8, []) ∧
  decode [0x7D#8, 0x12#8, 0xAD#8] = .ok (.adcAbsX 0xAD12#16, []) ∧ decode [0x18#8] = .ok (.clc, []) ∧
  decode [0x90#8, 0xF2#8] = .ok (.bcc 0xF2#8, []) ∧ decode [0x61#8, 0x1E#8] = .ok (.adcIndX 0x1E#8, []) ∧
  decode [0x6C#8, 0x00#8, 0x14#8] = .ok (.jmpInd 0x1400#16, []) ∧ decode [0xB2#8, 0x45#8] = .ok (.jmpZpInd 0x45#8, []) ∧
  decode [0xBF#8, 0x44#8] = .ok (.clbZp 5#3 0x44#8, []) ∧ decode [0xB3#8, 0xF2#8] = .ok (.bbcA 5#3 0xF2#8, []) ∧
  decode [0xB7#8, 0x04#8, 0xF1#8] = .ok (.bbcZp 5#3 0x04#8 0xF1#8, [])

/-! ### The step -/

/-- R6, R50: at a boundary where an instruction runs, the step is the meaning of the instruction the fetched bytes decode to, on the
state after the outside moves, or its refusal. Where the stored bytes at PC, PC + 1, PC + 2 modulo 65536 (the spec's decision D1) are the
encoding of an instruction, it is that one. How a next state is finished is the model's form: the overwritten request registers become
what BBC and BBS still see (assumption log 13), the forced sources are read off the change (log 12), the cycle counter takes the table's
count (log 16), and the index of free values advances (log 5). -/
def Obligations.StepRunsDecodedInstruction : Prop :=
  ∀ (s : State) (i : Instr), RunsInstruction s.arrive →
    (∃ rest, decode s.arrive.fetchBytes = .ok (i, rest)) ∨
      ((i.wellFormed = true ∨ ∃ hh : Byte, i = .jmpInd (concat hh 0xFF#8)) ∧ Placed s.arrive i) →
    hazardRefusal s.arrive.hazard i = none →
    (∀ t, exec i s.arrive = .next t → step s = .next { t with
      hazard := hazardAfter i s.arrive, lag := t.overwritten, overwritten := [], forced := forcedAfter s.arrive t,
      cycles := s.arrive.cycles + cyclesOf i s.arrive, draws := s.arrive.draws + 1 }) ∧
    (∀ r, exec i s.arrive = .refused r → step s = .refused r)

/-- R172, R175: in RUN a source is accepted exactly when I = 0 and some source has request and enable bits both 1 (or R196 forces
it), and then the first such source of the list, a forced one too. Priority as the order of the list, and the forced sources, are
the model's form (assumption log 12). -/
def Obligations.AcceptanceCondition : Prop :=
  ∀ s : State,
    (s.acceptable (fun _ => true) ≠ none ↔
      flag s.ps .i = false ∧ ∃ q ∈ s.cfg.irqSources, (s.requested q = true ∧ s.enabled q = true) ∨ q ∈ s.forced) ∧
    (∀ pre q post, s.cfg.irqSources = pre ++ q :: post → flag s.ps .i = false →
      (s.requested q = true ∧ s.enabled q = true) ∨ q ∈ s.forced →
      (∀ p ∈ pre, (s.requested p = false ∨ s.enabled p = false) ∧ p ∉ s.forced) →
      s.acceptable (fun _ => true) = some q)

/-- R173, R174, R183: in RUN, and out of WAIT or STOP by a source that can end it, accepting a source pushes PC unadjusted (so out of
standby the address after the WIT or STP), high byte first, then PS with B = 0; B is 0, I is 1, the other flags and A, X, Y stay; the
request bit is cleared, and no other bit of its register, so the other sources stay pending (R175); PC comes from the source's vector;
the run state is RUN; IRQ_ENTRY_CYCLES are charged. That the live B is cleared and T and D stay are the spec's own decisions D16 and
D21, that the cycles are a parameter is D22 (log 15), the order of the pushes and of the vector's bytes is R173's own inference, and the
counter of cycles is the model's (log 16). -/
def Obligations.InterruptAcceptance : Prop :=
  ∀ (s : State) (q : IrqSource), s.arrive.acceptable s.arrive.wakes = some q →
    PlainStack s.arrive 3 → StoredVector s.arrive q.vector →
    ∃ t, step s = .next t ∧ t.sp = s.arrive.sp - 3#8 ∧ t.a = s.arrive.a ∧ t.x = s.arrive.x ∧ t.y = s.arrive.y ∧ t.run = .run ∧
      t.cycles = s.arrive.cycles + s.arrive.cfg.irqEntryCycles ∧
      t.mem.read (stackByte s.arrive 0) = highByte s.arrive.pc ∧ t.mem.read (stackByte s.arrive 1) = lowByte s.arrive.pc ∧
      t.mem.read (stackByte s.arrive 2) = putFlag s.arrive.ps .b false ∧
      (∀ b, b ≠ stackByte s.arrive 0 → b ≠ stackByte s.arrive 1 → b ≠ stackByte s.arrive 2 → b ≠ q.requestAddress.toNat →
        t.mem.read b = s.arrive.mem.read b) ∧
      t.requested q = false ∧
      (∀ k, k ≠ q.requestBit.toNat →
        bitOf (t.mem.read q.requestAddress.toNat) k = bitOf (s.arrive.mem.read q.requestAddress.toNat) k) ∧
      (∀ p ∈ s.arrive.cfg.irqSources, ¬(p.requestAddress = q.requestAddress ∧ p.requestBit = q.requestBit) →
        t.requested p = s.arrive.requested p) ∧
      (∀ f, flag t.ps f = if f = .b then false else if f = .i then true else flag s.arrive.ps f) ∧
      t.pc = concat (t.mem.read (q.vector + 1#16).toNat) (t.mem.read q.vector.toNat)

/-- R153, R173, R178: RTI right after an acceptance returns to the interrupted program: PC, S, A, X, Y and PS as they were, but for B,
which the acceptance made 0; RTI right after BRK goes to the BRK's address + 2 with B = 1. -/
def Obligations.ReturnFromInterruptRestores : Prop :=
  ∀ s : State, PlainStack s 3 →
    (∀ q ∈ s.cfg.irqSources, ∃ u, exec .rti (s.takeInterrupt q) = .next u ∧ u.pc = s.pc ∧ u.sp = s.sp ∧ u.a = s.a ∧
      u.x = s.x ∧ u.y = s.y ∧ u.ps = putFlag s.ps .b false) ∧
    (∀ t, exec .brk s = .next t → ∃ u, exec .rti t = .next u ∧ u.pc = s.pc + 2#16 ∧ u.sp = s.sp ∧ u.a = s.a ∧
      u.x = s.x ∧ u.y = s.y ∧ u.ps = putFlag s.ps .b true)

/-- R183, R27: in WAIT or STOP the step accepts a source that can wake that state. With none acceptable it leaves the state as it is
where only accepted interrupts wake; where WAKE_REQUIRES_ACCEPT is false a request of a source that can wake it makes the run state RUN
and does nothing else, and without one the state stays (assumption log 18). No instruction executes. That one step stands for standing
by at one boundary, with no cycle counted, is the model's choice (assumption logs 16, 18). -/
def Obligations.StandbyStep : Prop :=
  ∀ s : State, s.arrive.run ≠ .run →
    (∀ q, s.arrive.acceptable s.arrive.wakes = some q → step s = .next (s.arrive.takeInterrupt q)) ∧
    (s.arrive.acceptable s.arrive.wakes = none →
      (s.arrive.cfg.wakeRequiresAccept = true → step s = .next s.arrive) ∧
      (s.arrive.cfg.wakeRequiresAccept = false →
        ((∃ q ∈ s.arrive.cfg.irqSources, s.arrive.wakes q = true ∧ s.arrive.requested q = true) →
          step s = .next { s.arrive with run := .run }) ∧
        ((∀ q ∈ s.arrive.cfg.irqSources, s.arrive.wakes q = true → s.arrive.requested q = false) →
          step s = .next s.arrive)))

/-- R209 (2): from a standby state that no source can wake, with nothing to come from outside, no number of steps changes
anything. A source that cannot end the run state may be acceptable. That a standby step answers the same state, the cycle counter
included, is the model's choice (assumption logs 16, 18). -/
def Obligations.AsleepForever : Prop := ∀ (s : State) (k : Nat), s.Asleep → Sys2Proof.core.run k s = .next s

/-- R209 (1): a `BRA` to itself with I = 1 and nothing to come from outside: after any number of steps the registers, the memory, the
ports and the run state are as they were. -/
def Obligations.SelfBranchForever : Prop :=
  ∀ (s : State) (k : Nat), s.Quiet → s.run = .run → flag s.ps .i = true → s.hazard ≠ .afterPlp →
    kindAt s.cfg s.pc = .ram ∨ kindAt s.cfg s.pc = .rom →
    kindAt s.cfg (s.pc + 1#16) = .ram ∨ kindAt s.cfg (s.pc + 1#16) = .rom →
    s.mem.read s.pc.toNat = 0x80#8 → s.mem.read (s.pc + 1#16).toNat = 0xFE#8 →
    ∃ t, Sys2Proof.core.run k s = .next t ∧ t.pc = s.pc ∧ t.a = s.a ∧ t.x = s.x ∧ t.y = s.y ∧ t.sp = s.sp ∧ t.ps = s.ps ∧
      t.mem = s.mem ∧ t.ports = s.ports ∧ t.run = .run

/-! ### Hazards -/

/-- R193: PLP loads PS at once; right after it any instruction but NOP is refused, and NOP is not; RTI leaves no such obligation. R193
says only that such a program is outside the spec; that the step refuses is the spec's decision D15 (U7), and that an invalid STP is
refused too is the model's reading (assumption log 15). -/
def Obligations.PlpNeedsNop : Prop :=
  (∀ s : State, ∃ t, exec .plp s = .next t ∧ t.ps = s.pulled .pullFirst) ∧
  (∀ s t : State, (s.finish .plp t).hazard = .afterPlp ∧ (s.finish .rti t).hazard = .none) ∧
  ∀ (s : State) (i : Instr) (rest : List Byte), RunsInstruction s.arrive → s.arrive.hazard = .afterPlp →
    decode s.arrive.fetchBytes = .ok (i, rest) →
    (i ≠ .nop → step s = .refused .plpWithoutNop) ∧ (i = .nop → ∃ t, step s = .next t ∧ t.hazard = .none)

/-- R194: right after an ADC or SBC with D = 1, SEC, CLC and CLD are refused and no other instruction is on that ground; with D = 0, or
after one other instruction (but PLP, R193), there is no obligation. R194 says only that such a program is outside the spec; the refusal
is the spec's decision D15 (U7; assumption log 15). -/
def Obligations.DecimalNeedsSpacing : Prop :=
  (∀ (s t : State) (o : Operand) (i : Instr), adcForm o = some i ∨ sbcForm o = some i → flag s.ps .d = true →
    (s.finish i t).hazard = .afterDecimal) ∧
  (∀ (s t : State) (i : Instr), i ≠ .plp → isAddOrSubtract i = false ∨ flag s.ps .d = false → (s.finish i t).hazard = .none) ∧
  ∀ (s : State) (i : Instr) (rest : List Byte), RunsInstruction s.arrive → s.arrive.hazard = .afterDecimal →
    decode s.arrive.fetchBytes = .ok (i, rest) →
    (i = .sec ∨ i = .clc ∨ i = .cld → step s = .refused .flagChangeAfterDecimal) ∧
    (i ≠ .sec → i ≠ .clc → i ≠ .cld → step s ≠ .refused .flagChangeAfterDecimal)

/-- R195: BBC or BBS on a request bit, as the very next instruction after one that stored to its register, tests the value before the
store, changed by it or not, and whatever a request from outside makes of the bit at the boundary between; after an instruction that
stored elsewhere or nowhere it tests the present value. That the old value is always shown is the model's choice (assumption log 13; D15
calls it the environment's freedom). Request bits in zero page that are stored and readable: BBC and BBS reach no others. -/
def Obligations.RequestBitLag : Prop :=
  ∀ (s t : State) (i : Instr) (q : IrqSource) (zz rr : Byte), exec i s = .next t → s.overwritten = [] → q ∈ s.cfg.irqSources →
    q.requestAddress = zeroPage zz →
    kindAt s.cfg (zeroPage zz) = .ram ∨
      (∃ b, kindAt s.cfg (zeroPage zz) = .register b ∧ bitOf b.readMask q.requestBit.toNat = true) →
    (zeroPage zz ∈ storedAddresses i s → (∀ ea ∈ storedAddresses i s, ea ≠ zeroPage zz → zz.toNat ∉ sideAddresses s.cfg ea) →
      ∀ u, u = s.finish i t ∨ (∃ n, u = applyMove (s.finish i t) (.request n)) →
        exec (.bbcZp q.requestBit zz rr) u =
          .next { u with pc := if s.requested q then t.pc + 3#16 else t.pc + 3#16 + rr.signExtend 16 } ∧
        exec (.bbsZp q.requestBit zz rr) u =
          .next { u with pc := if s.requested q then t.pc + 3#16 + rr.signExtend 16 else t.pc + 3#16 }) ∧
    (zeroPage zz ∉ storedAddresses i s → (s.finish i t).testedBit zz q.requestBit = t.requested q)

/-- R188, R196: a store that clears a set request bit, after which the enable bit of the same register is 1, does not stop the
acceptance at the next boundary with I = 0. R196 speaks of a store that sets the enable bit too; that it may have been 1 before follows
the words of R188 (assumption log 12). -/
def Obligations.ForcedAcceptance : Prop :=
  ∀ (s t : State) (i : Instr) (q : IrqSource), exec i s = .next t → q ∈ s.cfg.irqSources → q.requestAddress = q.enableAddress →
    s.requested q = true → t.requested q = false → t.enabled q = true → flag t.ps .i = false →
    (s.finish i t).accepts q = true ∧ (s.finish i t).acceptable (fun _ => true) ≠ none

/-! ### Timing -/

/-- R203, R204, R205: the cycle counts by group and mode, the adders for T = 1, and 2 more for a taken conditional branch. -/
def Obligations.CycleCounts : Prop :=
  ∀ (s : State) (o : Operand) (m : MemMode) (i : Instr),
    (adcForm o = some i ∨ sbcForm o = some i ∨ andForm o = some i ∨ oraForm o = some i ∨ eorForm o = some i →
      cyclesOf i s = readCycles o + if flag s.ps .t then 3 else 0) ∧
    (ldaForm o = some i → cyclesOf i s = readCycles o + if flag s.ps .t then 2 else 0) ∧
    (cmpForm o = some i → cyclesOf i s = readCycles o + if flag s.ps .t then 1 else 0) ∧
    (ldxForm o = some i ∨ ldyForm o = some i ∨ cpxForm o = some i ∨ cpyForm o = some i → cyclesOf i s = readCycles o) ∧
    (bitForm m = some i → cyclesOf i s = readCycles (.mem m)) ∧
    (staForm m = some i ∨ stxForm m = some i ∨ styForm m = some i → cyclesOf i s = readCycles (.mem m) + 1) ∧
    (aslForm m = some i ∨ lsrForm m = some i ∨ rolForm m = some i ∨ rorForm m = some i ∨ incForm m = some i ∨ decForm m = some i →
      cyclesOf i s = readCycles (.mem m) + 2) ∧
    ((∃ w, i = .jmpAbs w) → cyclesOf i s = 3) ∧ ((∃ w, i = .jmpInd w) → cyclesOf i s = 5) ∧
    ((∃ z, i = .jmpZpInd z) → cyclesOf i s = 4) ∧ ((∃ w, i = .jsrAbs w) → cyclesOf i s = 6) ∧
    ((∃ w, i = .jsrSp w) → cyclesOf i s = 5) ∧ ((∃ z, i = .jsrZpInd z) → cyclesOf i s = 7) ∧
    ((∃ n z, i = .ldm n z) → cyclesOf i s = 4) ∧ ((∃ z, i = .mulZpX z) → cyclesOf i s = 15) ∧
    ((∃ z, i = .divZpX z) → cyclesOf i s = 16) ∧ ((∃ z, i = .rrfZp z) → cyclesOf i s = 8) ∧
    ((∃ z, i = .comZp z) → cyclesOf i s = 5) ∧ ((∃ z, i = .tstZp z) → cyclesOf i s = 3) ∧
    (i ∈ [.clc, .cld, .cli, .clt, .clv, .sec, .sed, .sei, .set, .dex, .dey, .inx, .iny, .tax, .tay, .tsx, .txa, .txs, .tya, .nop,
      .wit, .stp] → cyclesOf i s = 2) ∧
    (∀ r, cyclesOf (.bra r) s = 4 ∧ cyclesOf (.bcc r) s = (if flag s.ps .c then 2 else 4) ∧
      cyclesOf (.bcs r) s = (if flag s.ps .c then 4 else 2) ∧ cyclesOf (.bne r) s = (if flag s.ps .z then 2 else 4) ∧
      cyclesOf (.beq r) s = (if flag s.ps .z then 4 else 2) ∧ cyclesOf (.bpl r) s = (if flag s.ps .n then 2 else 4) ∧
      cyclesOf (.bmi r) s = (if flag s.ps .n then 4 else 2) ∧ cyclesOf (.bvc r) s = (if flag s.ps .v then 2 else 4) ∧
      cyclesOf (.bvs r) s = (if flag s.ps .v then 4 else 2)) ∧
    (i = .brk → cyclesOf i s = 7) ∧ (i = .rti ∨ i = .rts → cyclesOf i s = 6) ∧ (i = .pha ∨ i = .php → cyclesOf i s = 3) ∧
    (i = .pla ∨ i = .plp → cyclesOf i s = 4) ∧
    ((∃ k z, i = .clbZp k z ∨ i = .sebZp k z) → cyclesOf i s = 5) ∧ ((∃ k, i = .clbA k ∨ i = .sebA k) → cyclesOf i s = 2) ∧
    (i = .aslA ∨ i = .lsrA ∨ i = .rolA ∨ i = .rorA ∨ i = .incA ∨ i = .decA → cyclesOf i s = 2) ∧
    (∀ k r, cyclesOf (.bbcA k r) s = (if bitOf s.a k.toNat then 4 else 6) ∧
      cyclesOf (.bbsA k r) s = (if bitOf s.a k.toNat then 6 else 4)) ∧
    (∀ k z r, cyclesOf (.bbcZp k z r) s = (if s.testedBit z k then 5 else 7) ∧
      cyclesOf (.bbsZp k z r) s = (if s.testedBit z k then 7 else 5))

/-! ### The whole machine -/

/-- R25, R37 and the memory's form: every step from every state of the invariant gives a state of the invariant. The
form is the model's (assumption log 3). -/
def Obligations.StepKeepsInvariant : Prop := ∀ s t : State, s.Inv → step s = .next t → t.Inv

/-- R3: no step changes the product. That State holds it is the model's choice (assumption log 18). -/
def Obligations.StepKeepsProduct : Prop := ∀ s t : State, step s = .next t → t.cfg = s.cfg

/-- R37, D11: no step changes a byte of ROM, whatever instruction it runs, whatever interrupt it takes and whatever the outside does,
a hardware reset included, where no request register lies in ROM. That ROM survives a hardware reset inside a run is the model's reading
of D28 (assumption log 7). -/
def Obligations.RomNeverChanges : Prop :=
  ∀ (s t : State) (a : Word), kindAt s.cfg a = .rom → (∀ q ∈ s.cfg.irqSources, q.requestAddress ≠ a) → step s = .next t →
    t.mem.read a.toNat = s.mem.read a.toNat

/-- R20, R21, R157, R173, R24: with nothing arriving from outside, T changes only where CLT, SET, PLP or RTI runs, and B only where
BRK, PLP or RTI runs or a source is accepted, which makes it 0. That acceptance clears the live B and leaves T are the spec's own
decisions D16 and D21 (assumption log 15). -/
def Obligations.WhoChangesTAndB : Prop :=
  ∀ s t : State, s.Quiet → step s = .next t →
    (flag t.ps .t ≠ flag s.ps .t →
      ∃ i, RunsInstruction s ∧ s.fetch = .ok i ∧ (i = .clt ∨ i = .set ∨ i = .plp ∨ i = .rti)) ∧
    (flag t.ps .b ≠ flag s.ps .b →
      (∃ i, RunsInstruction s ∧ s.fetch = .ok i ∧ (i = .brk ∨ i = .plp ∨ i = .rti)) ∨
      ((∃ q, s.acceptable s.wakes = some q ∧ t = s.takeInterrupt q) ∧ flag t.ps .b = false))

/-! ### The outside world -/

/-- R208, R171, R183, D7: what each outside move does, and nothing else; and the moves of a boundary arrive in order. A reset is the
hardware reset, in every run state, so it ends WAIT and STOP (HardwareResetState says what it leaves). A request sets the source's
request bit; pins and a peripheral's output change only their port; what a register presents changes in the bits the outside can change,
and in no request bit. A request, port or register the product does not have is nothing. The moves as a list, and the register's mask,
are the model's form (assumption logs 4, 20). -/
def Obligations.OutsideMoves : Prop :=
  ∀ s : State,
    (s.outside = [] → s.arrive = s) ∧
    (∀ moves later, s.outside = moves :: later → s.arrive = moves.foldl applyMove { s with outside := later }) ∧
    applyMove s .reset = s.hardwareReset ∧
    (∀ (n : Nat) (q : IrqSource), s.cfg.irqSources[n]? = some q → ∃ m, applyMove s (.request n) = { s with mem := m } ∧
      ∀ a k, bitOf (m.read a) k =
        if a = q.requestAddress.toNat ∧ k = q.requestBit.toNat then true else bitOf (s.mem.read a) k) ∧
    (∀ n, s.cfg.irqSources.length ≤ n → applyMove s (.request n) = s) ∧
    (∀ n v, ∃ ps qs, applyMove s (.pins n v) = { s with ports := ps } ∧ applyMove s (.peripheral n v) = { s with ports := qs } ∧
      (n < s.ports.length → ps[n]? = some { s.port n with pins := v } ∧ qs[n]? = some { s.port n with peripheral := v }) ∧
      (s.ports.length ≤ n → ps = s.ports ∧ qs = s.ports) ∧
      ∀ k, k ≠ n → ps[k]? = s.ports[k]? ∧ qs[k]? = s.ports[k]?) ∧
    (∀ ea b v, kindAt s.cfg ea = .register b → ∃ m, applyMove s (.register ea v) = { s with mem := m } ∧
      (∀ a, a ≠ ea.toNat → m.read a = s.mem.read a) ∧
      ∀ k, k < 8 → bitOf (m.read ea.toNat) k =
        if bitOf b.outsideMask k = true ∧ isRequestBit s.cfg ea k = false then bitOf v k else bitOf (s.mem.read ea.toNat) k) ∧
    (∀ ea v, (∀ b, kindAt s.cfg ea ≠ .register b) → applyMove s (.register ea v) = s)
end

