-- ==== Sys2Proof/Laws/Bits.lean ====
section
/-! SUPPORT. Lemmas on bytes, bit fields and flags: each operation is read off here once, and not unfolded again. -/

namespace Sys2Proof

theorem bitOf_putBit (v : Byte) (k j : Nat) (b : Bool) (hk : k < 8) :
    bitOf (putBit v k b) j = if j = k then b else bitOf v j := by
  unfold bitOf putBit bitMask
  by_cases hj : j < 8
  · by_cases e : j = k
    · subst e
      cases b <;> simp [hk]
    · have : ¬ (j - k = 0 ∧ k ≤ j) := by omega
      cases b <;> simp [hj, e]
      all_goals omega
  · have e : j ≠ k := by omega
    rw [BitVec.getLsbD_of_ge _ _ (by omega), BitVec.getLsbD_of_ge _ _ (by omega), if_neg e]

/-- `{hi, lo}` is `hi * 256 + lo` (spec 00_scope.md 5.1). -/
theorem concat_toNat (hi lo : Byte) : (concat hi lo).toNat = hi.toNat * 256 + lo.toNat := by
  unfold concat
  have h := lo.isLt
  rw [BitVec.toNat_append, Nat.shiftLeft_eq, ← Nat.mul_comm (2 ^ 8), Nat.two_pow_add_eq_or_of_lt h]

theorem highByte_toNat (w : Word) : (highByte w).toNat = w.toNat / 256 := by
  have h := w.isLt
  simp only [highByte, BitVec.extractLsb'_toNat, Nat.shiftRight_eq_div_pow]
  omega

theorem lowByte_toNat (w : Word) : (lowByte w).toNat = w.toNat % 256 := by
  simp [lowByte, BitVec.extractLsb'_toNat]

@[simp] theorem highByte_concat (hi lo : Byte) : highByte (concat hi lo) = hi := by
  apply BitVec.eq_of_toNat_eq
  have := lo.isLt
  rw [highByte_toNat, concat_toNat]
  omega

@[simp] theorem lowByte_concat (hi lo : Byte) : lowByte (concat hi lo) = lo := by
  apply BitVec.eq_of_toNat_eq
  have := lo.isLt
  rw [lowByte_toNat, concat_toNat]
  omega

@[simp] theorem concat_highByte_lowByte (w : Word) : concat (highByte w) (lowByte w) = w := by
  apply BitVec.eq_of_toNat_eq
  rw [concat_toNat, highByte_toNat, lowByte_toNat]
  omega

@[simp] theorem zeroPage_toNat (zz : Byte) : (zeroPage zz).toNat = zz.toNat := by
  simp [zeroPage, concat_toNat]

@[simp] theorem zext16_toNat (b : Byte) : (zext16 b).toNat = b.toNat := by
  have h := b.isLt
  simp only [zext16, BitVec.truncate_eq_setWidth, BitVec.toNat_setWidth]
  omega

theorem zeroPage_eq_zext16 (b : Byte) : zeroPage b = zext16 b := by
  apply BitVec.eq_of_toNat_eq
  simp

end Sys2Proof

namespace Sys2Proof.Machine

theorem Flag.bit_lt (f : Flag) : f.bit < 8 := by cases f <;> decide

theorem Flag.bit_inj {f g : Flag} (h : f.bit = g.bit) : f = g := by
  revert h; cases f <;> cases g <;> decide

/-- Writing one flag changes that flag and no other (spec 10_state.md R15). -/
@[simp] theorem flag_putFlag (ps : Byte) (f g : Flag) (b : Bool) :
    flag (putFlag ps f b) g = if g = f then b else flag ps g := by
  unfold flag putFlag
  rw [bitOf_putBit _ _ _ _ f.bit_lt]
  by_cases e : g = f
  · simp [e]
  · rw [if_neg e, if_neg fun h => e (Flag.bit_inj h)]

/-- Two status bytes with the same eight flags are the same byte. -/
theorem ps_ext {p q : Byte} (h : ∀ f : Flag, flag p f = flag q f) : p = q := by
  apply BitVec.eq_of_getLsbD_eq
  intro k hk
  have hc := h .c; have hz := h .z; have hi := h .i; have hd := h .d
  have hb := h .b; have ht := h .t; have hv := h .v; have hn := h .n
  simp only [flag, bitOf, Flag.bit] at hc hz hi hd hb ht hv hn
  match k, hk with
  | 0, _ => exact hc
  | 1, _ => exact hz
  | 2, _ => exact hi
  | 3, _ => exact hd
  | 4, _ => exact hb
  | 5, _ => exact ht
  | 6, _ => exact hv
  | 7, _ => exact hn
  | k + 8, hk => omega

/-- What each flag is after `SetNZ(v)` (spec 00_scope.md R4). -/
@[simp] theorem flag_setNZ (ps v : Byte) (f : Flag) :
    flag (setNZ ps v) f = if f = .z then v == 0x00#8 else if f = .n then bitOf v 7 else flag ps f := by
  simp [setNZ]

@[simp] theorem flag_setNZC (ps v : Byte) (c : Bool) (f : Flag) :
    flag (setNZC ps v c) f =
      if f = .c then c else if f = .z then v == 0x00#8 else if f = .n then bitOf v 7 else flag ps f := by
  simp [setNZC]

@[simp] theorem flag_putNVZC (ps : Byte) (n v z c : Bool) (f : Flag) :
    flag (putNVZC ps n v z c) f =
      if f = .c then c else if f = .z then z else if f = .v then v else if f = .n then n else flag ps f := by
  simp [putNVZC]

/-- A computation that leaves every flag but those of `fs` as it was. -/
theorem flag_bitTestPS (ps a m : Byte) (f : Flag) :
    flag (bitTestPS ps a m) f =
      if f = .z then (a &&& m) == 0x00#8 else if f = .v then bitOf m 6 else if f = .n then bitOf m 7 else flag ps f := by
  simp [bitTestPS]

/-- A decimal ADC or SBC never touches T, B, D, I (spec 10_state.md R24). -/
theorem flag_decimalComputed_other (k : Nat) (ps d m : Byte) (r : DecimalSum) (f : Flag)
    (h : f = .t ∨ f = .b ∨ f = .d ∨ f = .i) : flag (decimalComputed k ps d m r).ps f = flag ps f := by
  rcases h with rfl | rfl | rfl | rfl <;> simp [decimalComputed]

theorem flag_binaryComputed (ps : Byte) (r : Sum) (f : Flag) :
    flag (binaryComputed ps r).ps f =
      if f = .c then r.carry else if f = .z then r.value == 0x00#8 else if f = .v then r.overflow
      else if f = .n then bitOf r.value 7 else flag ps f := by
  simp [binaryComputed]

end Sys2Proof.Machine
end

