-- ==== Sys2Proof/Laws/Memory.lean ====
section
/-! SUPPORT. The memory: what a read gives after a write, and that a write keeps the canonical form. -/

namespace Sys2Proof.Machine

theorem Memory.read_erase (m : Memory) (a b : Nat) :
    Memory.read (Memory.erase m a) b = if b = a then Memory.unlisted else Memory.read m b := by
  induction m with
  | nil => simp [erase, read]
  | cons c m ih =>
    obtain ⟨k, v⟩ := c
    simp only [erase] at ih
    by_cases hk : k = a
    · subst hk
      have : List.filter (fun c : Host.Cell => c.1 != k) ((k, v) :: m) = List.filter (fun c => c.1 != k) m := by simp
      rw [erase, this, ih]
      by_cases hb : b = k
      · simp [hb]
      · have : ¬ k = b := fun h => hb h.symm
        simp [hb, read, this]
    · have : List.filter (fun c : Host.Cell => c.1 != a) ((k, v) :: m) = (k, v) :: List.filter (fun c => c.1 != a) m := by
        simp [hk]
      rw [erase, this]
      simp only [read, ih]
      by_cases hb : b = a
      · subst hb; simp [hk]
      · simp [hb]

theorem Memory.read_insert (m : Memory) (a b : Nat) (v : Byte) (h : Memory.read m a = Memory.unlisted)
    (hm : ∀ c ∈ m, c.1 ≠ a) : Memory.read (Memory.insert m a v) b = if b = a then v else Memory.read m b := by
  induction m with
  | nil =>
    by_cases e : b = a
    · simp [insert, read, e]
    · have : ¬ a = b := fun h => e h.symm
      simp [insert, read, e, this]
  | cons c m ih =>
    obtain ⟨k, w⟩ := c
    have hk : k ≠ a := hm (k, w) (by simp)
    simp only [insert]
    split
    · by_cases e : b = a
      · simp [read, e]
      · have : ¬ a = b := fun h => e h.symm
        simp [read, e, this]
    · have h' : Memory.read m a = Memory.unlisted := by simpa [read, hk] using h
      simp only [read]
      rw [ih h' fun c hc => hm c (List.mem_cons_of_mem _ hc)]
      by_cases e : b = a
      · subst e; simp [hk]
      · simp [e]

theorem Memory.erase_ne (m : Memory) (a : Nat) : ∀ c ∈ Memory.erase m a, c.1 ≠ a := by
  intro c hc
  simpa using (List.mem_filter.mp hc).2

/-- A read after a write: the written byte at the written address, the earlier byte everywhere else. -/
theorem Memory.read_write (m : Memory) (a b : Nat) (v : Byte) :
    Memory.read (Memory.write m a v) b = if b = a then v else Memory.read m b := by
  unfold write
  split
  · next h => rw [read_erase, h]
  · rw [read_insert _ _ _ _ (by simp [read_erase]) (erase_ne m a), read_erase]
    by_cases e : b = a <;> simp [e]

@[simp] theorem Memory.read_write_same (m : Memory) (a : Nat) (v : Byte) : Memory.read (Memory.write m a v) a = v := by
  simp [read_write]

theorem Memory.read_write_ne (m : Memory) {a b : Nat} (v : Byte) (h : b ≠ a) :
    Memory.read (Memory.write m a v) b = Memory.read m b := by
  simp [read_write, h]

theorem Memory.wf_nil : Memory.wf [] := ⟨.nil, fun _ h => nomatch h⟩

theorem Memory.wf_erase {m : Memory} (a : Nat) (h : Memory.wf m) : Memory.wf (Memory.erase m a) :=
  ⟨h.1.sublist List.filter_sublist, fun c hc => h.2 c (List.mem_filter.mp hc).1⟩

theorem Memory.mem_insert {m : Memory} {a : Nat} {v : Byte} {c : Host.Cell} (h : c ∈ Memory.insert m a v) :
    c = (a, v) ∨ c ∈ m := by
  induction m with
  | nil => simpa [insert] using h
  | cons d m ih =>
    obtain ⟨k, w⟩ := d
    simp only [insert] at h
    split at h
    · simpa using h
    · rcases List.mem_cons.mp h with rfl | h
      · simp
      · rcases ih h with h | h
        · exact .inl h
        · exact .inr (List.mem_cons_of_mem _ h)

theorem Memory.wf_insert {m : Memory} {a : Nat} {v : Byte} (h : Memory.wf m) (hm : ∀ c ∈ m, c.1 ≠ a) (ha : a < 65536)
    (hv : v ≠ Memory.unlisted) : Memory.wf (Memory.insert m a v) := by
  constructor
  · obtain ⟨h, -⟩ := h
    induction m with
    | nil => simp [insert]
    | cons d m ih =>
      obtain ⟨k, w⟩ := d
      have hk : k ≠ a := hm (k, w) (by simp)
      have hp := List.pairwise_cons.mp h
      simp only [insert]
      split
      · next hlt =>
        refine List.pairwise_cons.mpr ⟨fun c hc => ?_, h⟩
        rcases List.mem_cons.mp hc with rfl | hc
        · exact hlt
        · exact Nat.lt_trans hlt (hp.1 c hc)
      · refine List.pairwise_cons.mpr ⟨fun c hc => ?_, ih (fun c hc => hm c (List.mem_cons_of_mem _ hc)) hp.2⟩
        rcases mem_insert hc with rfl | hc
        · show k < a
          omega
        · exact hp.1 c hc
  · intro c hc
    rcases mem_insert hc with rfl | hc
    · exact ⟨ha, hv⟩
    · exact h.2 c hc

/-- A write keeps the canonical form. -/
theorem Memory.wf_write {m : Memory} {a : Nat} (v : Byte) (h : Memory.wf m) (ha : a < 65536) : Memory.wf (Memory.write m a v) := by
  unfold write
  split
  · exact wf_erase a h
  · next hv => exact wf_insert (wf_erase a h) (erase_ne m a) ha hv

/-- Memories in canonical form that read the same everywhere are the same list. -/
theorem Memory.ext_of_wf {m n : Memory} (hm : Memory.wf m) (hn : Memory.wf n)
    (h : ∀ a, Memory.read m a = Memory.read n a) : m = n := by
  have low : ∀ (m : Memory) (a : Nat), (∀ c ∈ m, a < c.1) → Memory.read m a = Memory.unlisted := by
    intro m a hm
    induction m with
    | nil => rfl
    | cons c m ih =>
      have := hm c (by simp)
      have e : ¬ c.1 = a := by omega
      simp only [read, e, if_false]
      exact ih fun d hd => hm d (List.mem_cons_of_mem _ hd)
  induction m generalizing n with
  | nil =>
    cases n with
    | nil => rfl
    | cons d n =>
      have := h d.1
      simp only [read, if_true] at this
      exact absurd this.symm (hn.2 d (by simp)).2
  | cons c m ih =>
    have hcm := List.pairwise_cons.mp hm.1
    cases n with
    | nil =>
      have := h c.1
      simp only [read, if_true] at this
      exact absurd this (hm.2 c (by simp)).2
    | cons d n =>
      have hdn := List.pairwise_cons.mp hn.1
      have hcd : c.1 = d.1 := by
        rcases Nat.lt_trichotomy c.1 d.1 with hlt | heq | hgt
        · have e := h c.1
          rw [low (d :: n) c.1 (by
            intro x hx
            rcases List.mem_cons.mp hx with rfl | hx
            · exact hlt
            · exact Nat.lt_trans hlt (hdn.1 x hx))] at e
          simp only [read, if_true] at e
          exact absurd e (hm.2 c (by simp)).2
        · exact heq
        · have e := h d.1
          rw [low (c :: m) d.1 (by
            intro x hx
            rcases List.mem_cons.mp hx with rfl | hx
            · exact hgt
            · exact Nat.lt_trans hgt (hcm.1 x hx))] at e
          simp only [read, if_true] at e
          exact absurd e.symm (hn.2 d (by simp)).2
      have hv : c.2 = d.2 := by
        have e := h c.1
        simpa [read, hcd] using e
      have hc : c = d := Prod.ext hcd hv
      subst hc
      congr 1
      refine ih ⟨hcm.2, fun x hx => hm.2 x (List.mem_cons_of_mem _ hx)⟩
        ⟨hdn.2, fun x hx => hn.2 x (List.mem_cons_of_mem _ hx)⟩ fun a => ?_
      by_cases e : a = c.1
      · subst e
        rw [low m _ hcm.1, low n _ hdn.1]
      · have := h a
        have e' : ¬ c.1 = a := fun h => e h.symm
        simpa [read, e'] using this

end Sys2Proof.Machine
end

