-- ==== Sys2Proof/Laws/State.lean ====
section
/-! SUPPORT. One lemma per field per update: what each named update leaves in each field of the state, so that no later proof
unfolds an update. -/

namespace Sys2Proof.Machine

section advance_fields
variable (s : State) (n : Nat)
@[simp] theorem advance_a : (s.advance n).a = s.a := rfl
@[simp] theorem advance_x : (s.advance n).x = s.x := rfl
@[simp] theorem advance_y : (s.advance n).y = s.y := rfl
@[simp] theorem advance_sp : (s.advance n).sp = s.sp := rfl
@[simp] theorem advance_ps : (s.advance n).ps = s.ps := rfl
@[simp] theorem advance_mem : (s.advance n).mem = s.mem := rfl
@[simp] theorem advance_ports : (s.advance n).ports = s.ports := rfl
@[simp] theorem advance_run : (s.advance n).run = s.run := rfl
@[simp] theorem advance_hazard : (s.advance n).hazard = s.hazard := rfl
@[simp] theorem advance_lag : (s.advance n).lag = s.lag := rfl
@[simp] theorem advance_overwritten : (s.advance n).overwritten = s.overwritten := rfl
@[simp] theorem advance_forced : (s.advance n).forced = s.forced := rfl
@[simp] theorem advance_cycles : (s.advance n).cycles = s.cycles := rfl
@[simp] theorem advance_cfg : (s.advance n).cfg = s.cfg := rfl
@[simp] theorem advance_outside : (s.advance n).outside = s.outside := rfl
@[simp] theorem advance_draws : (s.advance n).draws = s.draws := rfl
end advance_fields

section afterPull_fields
variable (s : State)
@[simp] theorem afterPull_a : (s.afterPull).a = s.a := rfl
@[simp] theorem afterPull_x : (s.afterPull).x = s.x := rfl
@[simp] theorem afterPull_y : (s.afterPull).y = s.y := rfl
@[simp] theorem afterPull_ps : (s.afterPull).ps = s.ps := rfl
@[simp] theorem afterPull_pc : (s.afterPull).pc = s.pc := rfl
@[simp] theorem afterPull_mem : (s.afterPull).mem = s.mem := rfl
@[simp] theorem afterPull_ports : (s.afterPull).ports = s.ports := rfl
@[simp] theorem afterPull_run : (s.afterPull).run = s.run := rfl
@[simp] theorem afterPull_hazard : (s.afterPull).hazard = s.hazard := rfl
@[simp] theorem afterPull_lag : (s.afterPull).lag = s.lag := rfl
@[simp] theorem afterPull_overwritten : (s.afterPull).overwritten = s.overwritten := rfl
@[simp] theorem afterPull_forced : (s.afterPull).forced = s.forced := rfl
@[simp] theorem afterPull_cycles : (s.afterPull).cycles = s.cycles := rfl
@[simp] theorem afterPull_cfg : (s.afterPull).cfg = s.cfg := rfl
@[simp] theorem afterPull_outside : (s.afterPull).outside = s.outside := rfl
@[simp] theorem afterPull_draws : (s.afterPull).draws = s.draws := rfl
end afterPull_fields

section busWrite_fields
variable (s : State) (ea : Word) (v : Byte)
@[simp] theorem busWrite_a : (s.busWrite ea v).a = s.a := by unfold State.busWrite; dsimp only; split <;> rfl
@[simp] theorem busWrite_x : (s.busWrite ea v).x = s.x := by unfold State.busWrite; dsimp only; split <;> rfl
@[simp] theorem busWrite_y : (s.busWrite ea v).y = s.y := by unfold State.busWrite; dsimp only; split <;> rfl
@[simp] theorem busWrite_sp : (s.busWrite ea v).sp = s.sp := by unfold State.busWrite; dsimp only; split <;> rfl
@[simp] theorem busWrite_ps : (s.busWrite ea v).ps = s.ps := by unfold State.busWrite; dsimp only; split <;> rfl
@[simp] theorem busWrite_pc : (s.busWrite ea v).pc = s.pc := by unfold State.busWrite; dsimp only; split <;> rfl
@[simp] theorem busWrite_run : (s.busWrite ea v).run = s.run := by unfold State.busWrite; dsimp only; split <;> rfl
@[simp] theorem busWrite_hazard : (s.busWrite ea v).hazard = s.hazard := by unfold State.busWrite; dsimp only; split <;> rfl
@[simp] theorem busWrite_lag : (s.busWrite ea v).lag = s.lag := by unfold State.busWrite; dsimp only; split <;> rfl
@[simp] theorem busWrite_forced : (s.busWrite ea v).forced = s.forced := by unfold State.busWrite; dsimp only; split <;> rfl
@[simp] theorem busWrite_cycles : (s.busWrite ea v).cycles = s.cycles := by unfold State.busWrite; dsimp only; split <;> rfl
@[simp] theorem busWrite_cfg : (s.busWrite ea v).cfg = s.cfg := by unfold State.busWrite; dsimp only; split <;> rfl
@[simp] theorem busWrite_outside : (s.busWrite ea v).outside = s.outside := by unfold State.busWrite; dsimp only; split <;> rfl
@[simp] theorem busWrite_draws : (s.busWrite ea v).draws = s.draws := by unfold State.busWrite; dsimp only; split <;> rfl
end busWrite_fields

section push_fields
variable (s : State) (v : Byte)
@[simp] theorem push_a : (s.push v).a = s.a := by simp [State.push]
@[simp] theorem push_x : (s.push v).x = s.x := by simp [State.push]
@[simp] theorem push_y : (s.push v).y = s.y := by simp [State.push]
@[simp] theorem push_ps : (s.push v).ps = s.ps := by simp [State.push]
@[simp] theorem push_pc : (s.push v).pc = s.pc := by simp [State.push]
@[simp] theorem push_run : (s.push v).run = s.run := by simp [State.push]
@[simp] theorem push_hazard : (s.push v).hazard = s.hazard := by simp [State.push]
@[simp] theorem push_lag : (s.push v).lag = s.lag := by simp [State.push]
@[simp] theorem push_forced : (s.push v).forced = s.forced := by simp [State.push]
@[simp] theorem push_cycles : (s.push v).cycles = s.cycles := by simp [State.push]
@[simp] theorem push_cfg : (s.push v).cfg = s.cfg := by simp [State.push]
@[simp] theorem push_outside : (s.push v).outside = s.outside := by simp [State.push]
@[simp] theorem push_draws : (s.push v).draws = s.draws := by simp [State.push]
end push_fields

section dstWrite_fields
variable (s : State) (v : Byte)
@[simp] theorem dstWrite_x : (s.dstWrite v).x = s.x := by unfold State.dstWrite; split <;> simp
@[simp] theorem dstWrite_y : (s.dstWrite v).y = s.y := by unfold State.dstWrite; split <;> simp
@[simp] theorem dstWrite_sp : (s.dstWrite v).sp = s.sp := by unfold State.dstWrite; split <;> simp
@[simp] theorem dstWrite_ps : (s.dstWrite v).ps = s.ps := by unfold State.dstWrite; split <;> simp
@[simp] theorem dstWrite_pc : (s.dstWrite v).pc = s.pc := by unfold State.dstWrite; split <;> simp
@[simp] theorem dstWrite_run : (s.dstWrite v).run = s.run := by unfold State.dstWrite; split <;> simp
@[simp] theorem dstWrite_hazard : (s.dstWrite v).hazard = s.hazard := by unfold State.dstWrite; split <;> simp
@[simp] theorem dstWrite_lag : (s.dstWrite v).lag = s.lag := by unfold State.dstWrite; split <;> simp
@[simp] theorem dstWrite_forced : (s.dstWrite v).forced = s.forced := by unfold State.dstWrite; split <;> simp
@[simp] theorem dstWrite_cycles : (s.dstWrite v).cycles = s.cycles := by unfold State.dstWrite; split <;> simp
@[simp] theorem dstWrite_cfg : (s.dstWrite v).cfg = s.cfg := by unfold State.dstWrite; split <;> simp
@[simp] theorem dstWrite_outside : (s.dstWrite v).outside = s.outside := by unfold State.dstWrite; split <;> simp
@[simp] theorem dstWrite_draws : (s.dstWrite v).draws = s.draws := by unfold State.dstWrite; split <;> simp
end dstWrite_fields

section putRequest_fields
variable (s : State) (q : IrqSource) (b : Bool)
@[simp] theorem putRequest_a : (s.putRequest q b).a = s.a := rfl
@[simp] theorem putRequest_x : (s.putRequest q b).x = s.x := rfl
@[simp] theorem putRequest_y : (s.putRequest q b).y = s.y := rfl
@[simp] theorem putRequest_sp : (s.putRequest q b).sp = s.sp := rfl
@[simp] theorem putRequest_ps : (s.putRequest q b).ps = s.ps := rfl
@[simp] theorem putRequest_pc : (s.putRequest q b).pc = s.pc := rfl
@[simp] theorem putRequest_ports : (s.putRequest q b).ports = s.ports := rfl
@[simp] theorem putRequest_run : (s.putRequest q b).run = s.run := rfl
@[simp] theorem putRequest_hazard : (s.putRequest q b).hazard = s.hazard := rfl
@[simp] theorem putRequest_lag : (s.putRequest q b).lag = s.lag := rfl
@[simp] theorem putRequest_overwritten : (s.putRequest q b).overwritten = s.overwritten := rfl
@[simp] theorem putRequest_forced : (s.putRequest q b).forced = s.forced := rfl
@[simp] theorem putRequest_cycles : (s.putRequest q b).cycles = s.cycles := rfl
@[simp] theorem putRequest_cfg : (s.putRequest q b).cfg = s.cfg := rfl
@[simp] theorem putRequest_outside : (s.putRequest q b).outside = s.outside := rfl
@[simp] theorem putRequest_draws : (s.putRequest q b).draws = s.draws := rfl
end putRequest_fields

section loadVector_fields
variable (s : State) (v : Word)
@[simp] theorem loadVector_a : (s.loadVector v).a = s.a := rfl
@[simp] theorem loadVector_x : (s.loadVector v).x = s.x := rfl
@[simp] theorem loadVector_y : (s.loadVector v).y = s.y := rfl
@[simp] theorem loadVector_sp : (s.loadVector v).sp = s.sp := rfl
@[simp] theorem loadVector_ps : (s.loadVector v).ps = s.ps := rfl
@[simp] theorem loadVector_mem : (s.loadVector v).mem = s.mem := rfl
@[simp] theorem loadVector_ports : (s.loadVector v).ports = s.ports := rfl
@[simp] theorem loadVector_run : (s.loadVector v).run = s.run := rfl
@[simp] theorem loadVector_hazard : (s.loadVector v).hazard = s.hazard := rfl
@[simp] theorem loadVector_lag : (s.loadVector v).lag = s.lag := rfl
@[simp] theorem loadVector_overwritten : (s.loadVector v).overwritten = s.overwritten := rfl
@[simp] theorem loadVector_forced : (s.loadVector v).forced = s.forced := rfl
@[simp] theorem loadVector_cycles : (s.loadVector v).cycles = s.cycles := rfl
@[simp] theorem loadVector_cfg : (s.loadVector v).cfg = s.cfg := rfl
@[simp] theorem loadVector_outside : (s.loadVector v).outside = s.outside := rfl
@[simp] theorem loadVector_draws : (s.loadVector v).draws = s.draws := rfl
end loadVector_fields

section saveContext_fields
variable (s : State) (ret : Word) (b : Bool)
@[simp] theorem saveContext_a : (s.saveContext ret b).a = s.a := by simp [State.saveContext]
@[simp] theorem saveContext_x : (s.saveContext ret b).x = s.x := by simp [State.saveContext]
@[simp] theorem saveContext_y : (s.saveContext ret b).y = s.y := by simp [State.saveContext]
@[simp] theorem saveContext_pc : (s.saveContext ret b).pc = s.pc := by simp [State.saveContext]
@[simp] theorem saveContext_run : (s.saveContext ret b).run = s.run := by simp [State.saveContext]
@[simp] theorem saveContext_hazard : (s.saveContext ret b).hazard = s.hazard := by simp [State.saveContext]
@[simp] theorem saveContext_lag : (s.saveContext ret b).lag = s.lag := by simp [State.saveContext]
@[simp] theorem saveContext_forced : (s.saveContext ret b).forced = s.forced := by simp [State.saveContext]
@[simp] theorem saveContext_cycles : (s.saveContext ret b).cycles = s.cycles := by simp [State.saveContext]
@[simp] theorem saveContext_cfg : (s.saveContext ret b).cfg = s.cfg := by simp [State.saveContext]
@[simp] theorem saveContext_outside : (s.saveContext ret b).outside = s.outside := by simp [State.saveContext]
@[simp] theorem saveContext_draws : (s.saveContext ret b).draws = s.draws := by simp [State.saveContext]
end saveContext_fields

section enterException_fields
variable (s : State) (ret : Word) (b : Bool) (q : Option IrqSource) (v : Word)
@[simp] theorem enterException_a : (s.enterException ret b q v).a = s.a := by cases q <;> simp [State.enterException]
@[simp] theorem enterException_x : (s.enterException ret b q v).x = s.x := by cases q <;> simp [State.enterException]
@[simp] theorem enterException_y : (s.enterException ret b q v).y = s.y := by cases q <;> simp [State.enterException]
@[simp] theorem enterException_run : (s.enterException ret b q v).run = s.run := by cases q <;> simp [State.enterException]
@[simp] theorem enterException_hazard : (s.enterException ret b q v).hazard = s.hazard := by cases q <;> simp [State.enterException]
@[simp] theorem enterException_lag : (s.enterException ret b q v).lag = s.lag := by cases q <;> simp [State.enterException]
@[simp] theorem enterException_forced : (s.enterException ret b q v).forced = s.forced := by cases q <;> simp [State.enterException]
@[simp] theorem enterException_cycles : (s.enterException ret b q v).cycles = s.cycles := by cases q <;> simp [State.enterException]
@[simp] theorem enterException_cfg : (s.enterException ret b q v).cfg = s.cfg := by cases q <;> simp [State.enterException]
@[simp] theorem enterException_outside : (s.enterException ret b q v).outside = s.outside := by cases q <;> simp [State.enterException]
@[simp] theorem enterException_draws : (s.enterException ret b q v).draws = s.draws := by cases q <;> simp [State.enterException]
end enterException_fields

section returnFromException_fields
variable (s : State)
@[simp] theorem returnFromException_a : (s.returnFromException).a = s.a := rfl
@[simp] theorem returnFromException_x : (s.returnFromException).x = s.x := rfl
@[simp] theorem returnFromException_y : (s.returnFromException).y = s.y := rfl
@[simp] theorem returnFromException_mem : (s.returnFromException).mem = s.mem := rfl
@[simp] theorem returnFromException_ports : (s.returnFromException).ports = s.ports := rfl
@[simp] theorem returnFromException_run : (s.returnFromException).run = s.run := rfl
@[simp] theorem returnFromException_hazard : (s.returnFromException).hazard = s.hazard := rfl
@[simp] theorem returnFromException_lag : (s.returnFromException).lag = s.lag := rfl
@[simp] theorem returnFromException_overwritten : (s.returnFromException).overwritten = s.overwritten := rfl
@[simp] theorem returnFromException_forced : (s.returnFromException).forced = s.forced := rfl
@[simp] theorem returnFromException_cycles : (s.returnFromException).cycles = s.cycles := rfl
@[simp] theorem returnFromException_cfg : (s.returnFromException).cfg = s.cfg := rfl
@[simp] theorem returnFromException_outside : (s.returnFromException).outside = s.outside := rfl
@[simp] theorem returnFromException_draws : (s.returnFromException).draws = s.draws := rfl
end returnFromException_fields

section finish_fields
variable (s : State) (i : Instr) (t : State)
@[simp] theorem finish_a : (s.finish i t).a = t.a := rfl
@[simp] theorem finish_x : (s.finish i t).x = t.x := rfl
@[simp] theorem finish_y : (s.finish i t).y = t.y := rfl
@[simp] theorem finish_sp : (s.finish i t).sp = t.sp := rfl
@[simp] theorem finish_ps : (s.finish i t).ps = t.ps := rfl
@[simp] theorem finish_pc : (s.finish i t).pc = t.pc := rfl
@[simp] theorem finish_mem : (s.finish i t).mem = t.mem := rfl
@[simp] theorem finish_ports : (s.finish i t).ports = t.ports := rfl
@[simp] theorem finish_run : (s.finish i t).run = t.run := rfl
@[simp] theorem finish_cfg : (s.finish i t).cfg = t.cfg := rfl
@[simp] theorem finish_outside : (s.finish i t).outside = t.outside := rfl
end finish_fields

section takeInterrupt_fields
variable (s : State) (q : IrqSource)
@[simp] theorem takeInterrupt_a : (s.takeInterrupt q).a = s.a := by simp [State.takeInterrupt]
@[simp] theorem takeInterrupt_x : (s.takeInterrupt q).x = s.x := by simp [State.takeInterrupt]
@[simp] theorem takeInterrupt_y : (s.takeInterrupt q).y = s.y := by simp [State.takeInterrupt]
@[simp] theorem takeInterrupt_cfg : (s.takeInterrupt q).cfg = s.cfg := by simp [State.takeInterrupt]
@[simp] theorem takeInterrupt_outside : (s.takeInterrupt q).outside = s.outside := by simp [State.takeInterrupt]
end takeInterrupt_fields

@[simp] theorem advance_pc (s : State) (n : Nat) : (s.advance n).pc = s.pc + BitVec.ofNat 16 n := rfl
@[simp] theorem afterPull_sp (s : State) : s.afterPull.sp = s.sp + 1#8 := rfl
@[simp] theorem push_sp (s : State) (v : Byte) : (s.push v).sp = s.sp - 1#8 := by simp [State.push]
@[simp] theorem dstWrite_a (s : State) (v : Byte) : (s.dstWrite v).a = if flag s.ps .t then s.a else v := by
  unfold State.dstWrite; split <;> simp
@[simp] theorem loadVector_pc (s : State) (v : Word) :
    (s.loadVector v).pc = concat (s.busRead .vectorHigh (v + 1#16)) (s.busRead .vectorLow v) := rfl
@[simp] theorem saveContext_sp (s : State) (ret : Word) (b : Bool) :
    (s.saveContext ret b).sp = s.sp - 1#8 - 1#8 - 1#8 := by simp [State.saveContext]
@[simp] theorem saveContext_ps (s : State) (ret : Word) (b : Bool) :
    (s.saveContext ret b).ps = putFlag (putFlag s.ps .b b) .i true := by simp [State.saveContext]
@[simp] theorem enterException_sp (s : State) (ret : Word) (b : Bool) (q : Option IrqSource) (v : Word) :
    (s.enterException ret b q v).sp = s.sp - 1#8 - 1#8 - 1#8 := by cases q <;> simp [State.enterException]
@[simp] theorem enterException_ps (s : State) (ret : Word) (b : Bool) (q : Option IrqSource) (v : Word) :
    (s.enterException ret b q v).ps = putFlag (putFlag s.ps .b b) .i true := by
  cases q <;> simp [State.enterException]
@[simp] theorem takeInterrupt_sp (s : State) (q : IrqSource) :
    (s.takeInterrupt q).sp = s.sp - 1#8 - 1#8 - 1#8 := by simp [State.takeInterrupt]
@[simp] theorem takeInterrupt_ps (s : State) (q : IrqSource) :
    (s.takeInterrupt q).ps = putFlag (putFlag s.ps .b false) .i true := by simp [State.takeInterrupt]
@[simp] theorem takeInterrupt_run (s : State) (q : IrqSource) : (s.takeInterrupt q).run = .run := rfl
@[simp] theorem takeInterrupt_hazard (s : State) (q : IrqSource) : (s.takeInterrupt q).hazard = .none := rfl
@[simp] theorem takeInterrupt_lag (s : State) (q : IrqSource) : (s.takeInterrupt q).lag = [] := rfl
@[simp] theorem takeInterrupt_overwritten (s : State) (q : IrqSource) : (s.takeInterrupt q).overwritten = [] := rfl
@[simp] theorem takeInterrupt_forced (s : State) (q : IrqSource) : (s.takeInterrupt q).forced = [] := rfl
@[simp] theorem takeInterrupt_draws (s : State) (q : IrqSource) : (s.takeInterrupt q).draws = s.draws + 1 := rfl
@[simp] theorem takeInterrupt_cycles (s : State) (q : IrqSource) :
    (s.takeInterrupt q).cycles = s.cycles + s.cfg.irqEntryCycles := rfl
@[simp] theorem returnFromException_sp (s : State) : s.returnFromException.sp = s.sp + 1#8 + 1#8 + 1#8 := rfl
@[simp] theorem finish_hazard (s : State) (i : Instr) (t : State) : (s.finish i t).hazard = hazardAfter i s := rfl
@[simp] theorem finish_lag (s : State) (i : Instr) (t : State) : (s.finish i t).lag = t.overwritten := rfl
@[simp] theorem finish_overwritten (s : State) (i : Instr) (t : State) : (s.finish i t).overwritten = [] := rfl
@[simp] theorem finish_forced (s : State) (i : Instr) (t : State) : (s.finish i t).forced = forcedAfter s t := rfl
@[simp] theorem finish_cycles (s : State) (i : Instr) (t : State) :
    (s.finish i t).cycles = s.cycles + cyclesOf i s := rfl
@[simp] theorem finish_draws (s : State) (i : Instr) (t : State) : (s.finish i t).draws = s.draws + 1 := rfl

end Sys2Proof.Machine
end

