-- ==== Sys2Proof/Laws/Ops.lean ====
section
/-! SUPPORT. For each shared operation, what it can do, said once: the bus, the stack, exceptions, outside moves. -/

namespace Sys2Proof.Machine

/-- A formed operand goes on, and only a formed operand does. -/
theorem proceed_next {α : Type} {e : Except Refusal α} {k : α → State} {t : State} :
    proceed e k = .next t ↔ ∃ v, e = .ok v ∧ t = k v := by
  cases e with
  | ok v => simp [proceed, eq_comm]
  | error r => simp [proceed]

@[simp] theorem proceed_ok {α : Type} (v : α) (k : α → State) : proceed (.ok v) k = .next (k v) := rfl

@[simp] theorem proceed_error {α : Type} (r : Refusal) (k : α → State) : proceed (.error r : Except Refusal α) k = .refused r := rfl

theorem proceed_refused {α : Type} {e : Except Refusal α} {k : α → State} {r : Refusal} :
    proceed e k = .refused r ↔ e = .error r := by
  cases e <;> simp [proceed]

/-- A read depends on the product, the stored bytes, the ports and the draw, and on nothing else (spec 20_memory.md R37). -/
theorem busRead_congr {s t : State} (hc : t.cfg = s.cfg) (hm : t.mem = s.mem) (hp : t.ports = s.ports) (hd : t.draws = s.draws)
    (acc : Access) (ea : Word) : t.busRead acc ea = s.busRead acc ea := by
  unfold State.busRead State.presented State.port
  rw [hc, hm, hp, hd]

@[simp] theorem busRead_advance (s : State) (n : Nat) (acc : Access) (ea : Word) :
    (s.advance n).busRead acc ea = s.busRead acc ea := rfl

@[simp] theorem busRead_afterPull (s : State) (acc : Access) (ea : Word) : s.afterPull.busRead acc ea = s.busRead acc ea := rfl

/-- Where reads give the held byte, what is presented is what is held (spec 20_memory.md R37). -/
theorem presented_held {s : State} {ea : Word} (h : readsAsHeld (kindAt s.cfg ea) = true) (acc : Access) (held : Byte) :
    s.presented acc ea held = held := by
  unfold State.presented
  cases hk : kindAt s.cfg ea with
  | register b => simp_all [readsAsHeld]
  | _ => simp_all [readsAsHeld]

/-- A read of RAM, ROM or a fully readable register gives the stored byte (spec 20_memory.md R37). -/
theorem busRead_stored {s : State} {ea : Word} (h : readsAsHeld (kindAt s.cfg ea) = true) (acc : Access) :
    s.busRead acc ea = s.mem.read ea.toNat := presented_held h acc _

/-- A readable bit of a register is presented as it is held (spec 20_memory.md R37). -/
theorem bitOf_presented_register {s : State} {ea : Word} {b : RegisterBehaviour} (h : kindAt s.cfg ea = .register b) {k : Nat}
    (hm : bitOf b.readMask k = true) (acc : Access) (held : Byte) :
    bitOf (s.presented acc ea held) k = bitOf held k := by
  unfold State.presented
  rw [h]
  dsimp only
  split
  · rfl
  · simp only [bitOf, BitVec.getLsbD_or, BitVec.getLsbD_and, BitVec.getLsbD_not] at hm ⊢
    rw [hm]
    simp

/-- `underMask` bit by bit. -/
theorem bitOf_underMask (mask old v : Byte) (k : Nat) (hk : k < 8) :
    bitOf (underMask mask old v) k = if bitOf mask k then bitOf v k else bitOf old k := by
  have h : bitOf (underMask mask old v) k = (bitOf mask k && bitOf v k || !bitOf mask k && bitOf old k) := by
    simp only [underMask, bitOf, BitVec.getLsbD_or, BitVec.getLsbD_and, BitVec.getLsbD_not, hk, decide_true, Bool.true_and]
  rw [h]
  cases bitOf mask k <;> simp

/-- A bit that is no admitted request bit of the address is left alone. -/
theorem bitOf_mapRequestBits_of_none (c : Config) (a : Word) (p : IrqSource → Bool) (f : Bool → Bool → Bool) (old v : Byte) (k : Nat)
    (h : ∀ q ∈ c.irqSources, q.requestAddress = a → q.requestBit.toNat = k → p q = false) :
    bitOf (mapRequestBits c a p f old v) k = bitOf v k := by
  unfold mapRequestBits
  generalize c.irqSources = l at h
  induction l generalizing v with
  | nil => rfl
  | cons q l ih =>
    rw [List.foldl_cons, ih _ fun r hr => h r (List.mem_cons_of_mem _ hr)]
    split
    · next hq =>
      rw [bitOf_putBit _ _ _ _ q.requestBit.isLt, if_neg]
      intro e
      simpa [hq.2] using h q (by simp) hq.1 e.symm
    · rfl

/-- An admitted request bit of the address becomes `f` of its old and new value. -/
theorem bitOf_mapRequestBits_of_some (c : Config) (a : Word) (p : IrqSource → Bool) (f : Bool → Bool → Bool)
    (hf : ∀ o n, f o (f o n) = f o n) (old v : Byte) (k : Nat)
    (h : ∃ q ∈ c.irqSources, q.requestAddress = a ∧ q.requestBit.toNat = k ∧ p q = true) :
    bitOf (mapRequestBits c a p f old v) k = f (bitOf old k) (bitOf v k) := by
  unfold mapRequestBits
  generalize c.irqSources = l at h
  suffices H : ∀ v, bitOf (l.foldl (fun w q =>
      if q.requestAddress = a ∧ p q = true then
        putBit w q.requestBit.toNat (f (bitOf old q.requestBit.toNat) (bitOf w q.requestBit.toNat))
      else w) v) k = f (bitOf old k) (bitOf v k) ∨
      ((¬ ∃ q ∈ l, q.requestAddress = a ∧ q.requestBit.toNat = k ∧ p q = true) ∧ bitOf (l.foldl (fun w q =>
      if q.requestAddress = a ∧ p q = true then
        putBit w q.requestBit.toNat (f (bitOf old q.requestBit.toNat) (bitOf w q.requestBit.toNat))
      else w) v) k = bitOf v k) by
    exact (H v).resolve_right fun n => n.1 h
  clear h
  induction l with
  | nil => exact fun v => .inr ⟨by simp, rfl⟩
  | cons q l ih =>
    intro v
    rw [List.foldl_cons]
    by_cases hq : q.requestAddress = a ∧ p q = true
    · rw [if_pos hq]
      by_cases hk : k = q.requestBit.toNat
      · left
        rcases ih (putBit v q.requestBit.toNat (f (bitOf old q.requestBit.toNat) (bitOf v q.requestBit.toNat))) with e | ⟨-, e⟩ <;>
          rw [e, bitOf_putBit _ _ _ _ q.requestBit.isLt, if_pos hk, ← hk]
        exact hf _ _
      · rcases ih (putBit v q.requestBit.toNat (f (bitOf old q.requestBit.toNat) (bitOf v q.requestBit.toNat))) with e | ⟨n, e⟩ <;>
          rw [e, bitOf_putBit _ _ _ _ q.requestBit.isLt, if_neg hk]
        · exact .inl rfl
        · refine .inr ⟨?_, rfl⟩
          rintro ⟨r, hr, h1, h2, h3⟩
          rcases List.mem_cons.mp hr with rfl | hr
          · exact hk h2.symm
          · exact n ⟨r, hr, h1, h2, h3⟩
    · rw [if_neg hq]
      rcases ih v with e | ⟨n, e⟩
      · exact .inl e
      · refine .inr ⟨?_, e⟩
        rintro ⟨r, hr, h1, h2, h3⟩
        rcases List.mem_cons.mp hr with rfl | hr
        · exact hq ⟨h1, h3⟩
        · exact n ⟨r, hr, h1, h2, h3⟩

/-- Where no request bit lies at the address, the byte is stored as it is. -/
theorem storedByte_of_no_request (c : Config) (ea : Word) (old v : Byte) (h : ∀ q ∈ c.irqSources, q.requestAddress ≠ ea) :
    storedByte c ea old v = v := by
  unfold storedByte mapRequestBits
  generalize c.irqSources = l at h
  induction l generalizing v with
  | nil => rfl
  | cons q l ih =>
    rw [List.foldl_cons, if_neg fun e => h q (by simp) e.1]
    exact ih v fun r hr => h r (List.mem_cons_of_mem _ hr)

/-- What a request bit made `b` is: that bit alone changes. -/
theorem bitOf_putRequestBit (m : Memory) (q : IrqSource) (b : Bool) (a k : Nat) :
    bitOf ((putRequestBit m q b).read a) k =
      if a = q.requestAddress.toNat ∧ k = q.requestBit.toNat then b else bitOf (m.read a) k := by
  unfold putRequestBit
  by_cases ha : a = q.requestAddress.toNat
  · subst ha
    simp [bitOf_putBit _ _ _ _ q.requestBit.isLt]
  · rw [Memory.read_write_ne _ _ ha, if_neg fun e => ha e.1]

/-- A write's side effect sets request bits of the named sources, or leaves them; nothing else changes (spec 70_reset_and_hazards.md
R207). -/
theorem bitOf_requestsOnWrite (c : Config) (d : Nat) (w : Word) (l : List Nat) (m : Memory) (a k : Nat) :
    bitOf ((requestsOnWrite c d w l m).read a) k = bitOf (m.read a) k ∨
    (bitOf ((requestsOnWrite c d w l m).read a) k = true ∧
      ∃ n ∈ l, ∃ q, c.irqSources[n]? = some q ∧ q.requestAddress.toNat = a ∧ q.requestBit.toNat = k) := by
  unfold requestsOnWrite
  induction l generalizing m with
  | nil => exact .inl rfl
  | cons n l ih =>
    rw [List.foldl_cons]
    split
    · next q hq hb =>
      by_cases hk : a = q.requestAddress.toNat ∧ k = q.requestBit.toNat
      · refine .inr ⟨?_, n, by simp, q, hq, hk.1.symm, hk.2.symm⟩
        rcases ih (putRequestBit m q true) with e | ⟨e, -⟩
        · rw [e, bitOf_putRequestBit, if_pos hk]
        · exact e
      · rcases ih (putRequestBit m q true) with e | ⟨e, n', hn', r⟩
        · rw [e, bitOf_putRequestBit, if_neg hk]; exact .inl rfl
        · exact .inr ⟨e, n', List.mem_cons_of_mem _ hn', r⟩
    · rcases ih m with e | ⟨e, n', hn', r⟩
      · exact .inl e
      · exact .inr ⟨e, n', List.mem_cons_of_mem _ hn', r⟩

theorem requestsOnWrite_read_ne (c : Config) (d : Nat) (w : Word) (l : List Nat) (m : Memory) (a : Nat)
    (h : ∀ n ∈ l, ∀ q, c.irqSources[n]? = some q → a ≠ q.requestAddress.toNat) :
    (requestsOnWrite c d w l m).read a = m.read a := by
  unfold requestsOnWrite
  induction l generalizing m with
  | nil => rfl
  | cons n l ih =>
    rw [List.foldl_cons]
    rw [ih _ fun n' hn' => h n' (List.mem_cons_of_mem _ hn')]
    split
    · next q hq hb => exact Memory.read_write_ne _ _ (h n (by simp) q hq)
    · rfl

theorem wf_requestsOnWrite (c : Config) (d : Nat) (w : Word) (l : List Nat) {m : Memory} (h : m.wf) :
    (requestsOnWrite c d w l m).wf := by
  unfold requestsOnWrite
  induction l generalizing m with
  | nil => exact h
  | cons n l ih =>
    rw [List.foldl_cons]
    apply ih
    split
    · next q hq hb => exact Memory.wf_write _ h q.requestAddress.isLt
    · exact h

/-- A write changes no stored byte but the one at its address, and request registers that a write there may set (spec 20_memory.md
R37, 70_reset_and_hazards.md R207). -/
theorem busWrite_read_ne (s : State) {ea : Word} {a : Nat} (v : Byte) (h : a ≠ ea.toNat)
    (hs : ∀ b, kindAt s.cfg ea = .register b → ∀ n ∈ b.mayRequest, ∀ q, s.cfg.irqSources[n]? = some q → a ≠ q.requestAddress.toNat) :
    (s.busWrite ea v).mem.read a = s.mem.read a := by
  unfold State.busWrite
  dsimp only
  split
  · exact Memory.read_write_ne _ _ h
  · next b hk => exact (requestsOnWrite_read_ne _ _ _ _ _ _ (hs b hk)).trans (Memory.read_write_ne _ _ h)
  all_goals rfl

/-- The same at an address that is no register. -/
theorem busWrite_read_ne_of_ram (s : State) {ea : Word} {a : Nat} (v : Byte) (h : a ≠ ea.toNat) (hk : kindAt s.cfg ea = .ram) :
    (s.busWrite ea v).mem.read a = s.mem.read a :=
  busWrite_read_ne s v h fun b hb => by rw [hk] at hb; cases hb

/-- A write to RAM stores the byte (spec 20_memory.md R37). -/
theorem busWrite_read_same {s : State} {ea : Word} (h : kindAt s.cfg ea = .ram) (v : Byte) :
    (s.busWrite ea v).mem.read ea.toNat = storedByte s.cfg ea (s.mem.read ea.toNat) v := by
  unfold State.busWrite
  dsimp only
  rw [h]
  simp

/-- A write to an address that stores nothing leaves the memory as it was (spec 20_memory.md R37, R40). -/
theorem busWrite_mem_of_not_stored {s : State} {ea : Word} (h : kindAt s.cfg ea ≠ .ram) (h' : ∀ b, kindAt s.cfg ea ≠ .register b)
    (v : Byte) : (s.busWrite ea v).mem = s.mem := by
  unfold State.busWrite
  dsimp only
  split <;> simp_all

/-- A write to an address that is no port register leaves the ports as they were (spec 20_memory.md R40). -/
theorem busWrite_ports_of_no_port {s : State} {ea : Word} (h : ∀ n, kindAt s.cfg ea ≠ .port n ∧ kindAt s.cfg ea ≠ .direction n)
    (v : Byte) : (s.busWrite ea v).ports = s.ports := by
  unfold State.busWrite
  dsimp only
  split <;> simp_all

@[simp] theorem busWrite_ports_length (s : State) (ea : Word) (v : Byte) : (s.busWrite ea v).ports.length = s.ports.length := by
  unfold State.busWrite
  dsimp only
  split <;> simp

/-- What a write leaves noted: the old byte of a request register that stores, and nothing more (spec 70_reset_and_hazards.md R195). -/
theorem busWrite_overwritten (s : State) (ea : Word) (v : Byte) :
    (s.busWrite ea v).overwritten = s.overwritten ∨
    ((s.busWrite ea v).overwritten = s.overwritten ++ [(ea.toNat, s.mem.read ea.toNat)] ∧
      ∃ q ∈ s.cfg.irqSources, q.requestAddress = ea) := by
  have hn : s.noteWrite ea = s.overwritten ∨ (s.noteWrite ea = s.overwritten ++ [(ea.toNat, s.mem.read ea.toNat)] ∧
      ∃ q ∈ s.cfg.irqSources, q.requestAddress = ea) := by
    unfold State.noteWrite
    split
    · next h =>
      obtain ⟨q, hq, e⟩ := List.any_eq_true.mp h
      exact .inr ⟨rfl, q, hq, by simpa using e⟩
    · exact .inl rfl
  unfold State.busWrite
  dsimp only
  split <;> first | exact hn | exact .inl rfl

theorem busWrite_formed {s : State} (h : s.Formed) (ea : Word) (v : Byte) : (s.busWrite ea v).Formed := by
  refine ⟨?_, by simpa using h.2⟩
  unfold State.busWrite
  dsimp only
  split
  · exact Memory.wf_write _ h.1 ea.isLt
  · exact wf_requestsOnWrite _ _ _ _ (Memory.wf_write _ h.1 ea.isLt)
  all_goals exact h.1

/-- `Formed` looks at the memory, the ports and the product only. -/
theorem formed_congr {s t : State} (hm : t.mem = s.mem) (hp : t.ports = s.ports) (hc : t.cfg = s.cfg) : t.Formed ↔ s.Formed := by
  unfold State.Formed
  rw [hm, hp, hc]

theorem push_formed {s : State} (h : s.Formed) (v : Byte) : (s.push v).Formed :=
  (formed_congr rfl rfl rfl).mp (busWrite_formed h (s.stackAddress s.sp) v)

theorem dstWrite_formed {s : State} (h : s.Formed) (v : Byte) : (s.dstWrite v).Formed := by
  unfold State.dstWrite
  split
  · exact busWrite_formed h _ _
  · exact h

theorem putRequest_formed {s : State} (h : s.Formed) (q : IrqSource) (b : Bool) : (s.putRequest q b).Formed :=
  ⟨Memory.wf_write _ h.1 q.requestAddress.isLt, h.2⟩

theorem saveContext_formed {s : State} (h : s.Formed) (ret : Word) (b : Bool) : (s.saveContext ret b).Formed := by
  have h0 : State.Formed { s with ps := putFlag s.ps .b b } := h
  exact push_formed (push_formed (push_formed h0 _) _) _

theorem enterException_formed {s : State} (h : s.Formed) (ret : Word) (b : Bool) (q : Option IrqSource) (v : Word) :
    (s.enterException ret b q v).Formed := by
  cases q with
  | none => exact saveContext_formed h ret b
  | some q => exact putRequest_formed (saveContext_formed h ret b) q false

/-- The bytes a push into RAM stores: one byte at the address S indicates (spec 00_scope.md R5). -/
theorem push_read_ne (s : State) {b : Nat} (v : Byte) (h : b ≠ (s.stackAddress s.sp).toNat)
    (hk : kindAt s.cfg (s.stackAddress s.sp) = .ram) : (s.push v).mem.read b = s.mem.read b := busWrite_read_ne_of_ram s v h hk

/-- With the stack page fixed at 1, a stack address does not depend on the memory (spec 10_state.md R13). -/
theorem stackAddress_fixed01 {s : State} (h : s.cfg.stackPage = .fixed01) (v : Byte) : s.stackAddress v = concat 0x01#8 v := by
  simp [State.stackAddress, State.stackPage, h]

/-- Stack addresses of different S are different (spec 20_memory.md R33). -/
theorem concat_ne {hi a b : Byte} (h : a ≠ b) : concat hi a ≠ concat hi b := by
  intro e
  apply h
  have := congrArg lowByte e
  simpa using this

/-- What a request bit is after the hardware sets or clears the request bit of its source (spec 60_exceptions.md R174). -/
theorem requested_putRequest (s : State) (q : IrqSource) (b : Bool) : (s.putRequest q b).requested q = b := by
  simp [State.requested, State.putRequest, bitOf_putRequestBit]

/-- An interrupt is accepted only with I = 0, from a source of the product (spec 60_exceptions.md R172). -/
theorem acceptable_some {s : State} {among : IrqSource → Bool} {q : IrqSource} (h : s.acceptable among = some q) :
    q ∈ s.cfg.irqSources ∧ among q = true ∧ s.accepts q = true := by
  have h1 := List.find?_some h
  have h2 := List.mem_of_find?_eq_some h
  simp only [Bool.and_eq_true] at h1
  exact ⟨h2, h1.1, h1.2⟩

theorem acceptable_none {s : State} {among : IrqSource → Bool} (h : s.acceptable among = none) :
    ∀ q ∈ s.cfg.irqSources, among q = true → s.accepts q = false := by
  intro q hq ha
  have := List.find?_eq_none.mp h q hq
  simpa [ha] using this

theorem accepts_of_disabled {s : State} (h : flag s.ps .i = true) (q : IrqSource) : s.accepts q = false := by
  simp [State.accepts, h]

/-- What standby can do at a boundary (spec 60_exceptions.md R183). -/
theorem standby_cases (s : State) (wakes : IrqSource → Bool) :
    (∃ q, s.acceptable wakes = some q ∧ s.standby wakes = s.takeInterrupt q) ∨
    (s.acceptable wakes = none ∧ s.cfg.wakeRequiresAccept = false ∧ s.standby wakes = { s with run := .run }) ∨
    (s.acceptable wakes = none ∧ s.standby wakes = s) := by
  unfold State.standby
  cases h : s.acceptable wakes with
  | some q => exact .inl ⟨q, rfl, rfl⟩
  | none =>
    by_cases hc : s.cfg.wakeRequiresAccept = false ∧ (s.cfg.irqSources.any fun q => wakes q && s.requested q) = true
    · rw [if_pos hc]; exact .inr (.inl ⟨rfl, hc.1, rfl⟩)
    · rw [if_neg hc]; exact .inr (.inr ⟨rfl, rfl⟩)

/-- What a step at a boundary can answer: standby, an acceptance, or a finished instruction (spec 00_scope.md R6). -/
theorem atBoundary_next {s t : State} (h : atBoundary s = .next t) :
    (s.run = .wait ∧ t = s.standby (·.wakesWait)) ∨ (s.run = .stop ∧ t = s.standby (·.wakesStop)) ∨
    (s.run = .run ∧ ∃ q, s.acceptable (fun _ => true) = some q ∧ t = s.takeInterrupt q) ∨
    (s.run = .run ∧ s.acceptable (fun _ => true) = none ∧
      ∃ i u, s.fetch = .ok i ∧ hazardRefusal s.hazard i = none ∧ exec i s = .next u ∧ t = s.finish i u) := by
  unfold atBoundary at h
  cases hr : s.run with
  | wait =>
    rw [hr] at h
    injection h with h
    exact .inl ⟨rfl, h.symm⟩
  | stop =>
    rw [hr] at h
    injection h with h
    exact .inr (.inl ⟨rfl, h.symm⟩)
  | run =>
    rw [hr] at h
    cases ha : s.acceptable fun _ => true with
    | some q =>
      simp only [ha] at h
      injection h with h
      exact .inr (.inr (.inl ⟨rfl, q, rfl, h.symm⟩))
    | none =>
      simp only [ha] at h
      refine .inr (.inr (.inr ⟨rfl, rfl, ?_⟩))
      unfold runInstruction at h
      cases hf : s.fetch with
      | error r => simp [hf] at h
      | ok i =>
        simp only [hf] at h
        cases hz : hazardRefusal s.hazard i with
        | some r => simp [hz] at h
        | none =>
          simp only [hz] at h
          cases he : exec i s with
          | next u =>
            rw [he] at h
            injection h with h
            exact ⟨i, u, rfl, hz, he, h.symm⟩
          | fault f => simp [he, complete] at h
          | refused r => simp [he, complete] at h

/-- What one move of the outside world can do (spec 70_reset_and_hazards.md R208): reset, set a request bit, change what a port
presents, or what a register presents. -/
theorem applyMove_cases (s : State) (m : OutsideMove) :
    applyMove s m = s.hardwareReset ∨ (∃ q ∈ s.cfg.irqSources, applyMove s m = s.putRequest q true) ∨
    (∃ ps, ps.length = s.ports.length ∧ applyMove s m = { s with ports := ps }) ∨
    ∃ a b v, kindAt s.cfg a = .register b ∧ applyMove s m = { s with mem := s.mem.write a.toNat v } := by
  cases m with
  | reset => exact .inl rfl
  | request k =>
    cases h : s.cfg.irqSources[k]? with
    | some q => exact .inr (.inl ⟨q, List.mem_of_getElem? h, by simp [applyMove, h]⟩)
    | none => exact .inr (.inr (.inl ⟨s.ports, rfl, by simp [applyMove, h]⟩))
  | pins n v => exact .inr (.inr (.inl ⟨_, List.length_set, rfl⟩))
  | peripheral n v => exact .inr (.inr (.inl ⟨_, List.length_set, rfl⟩))
  | register a v =>
    cases h : kindAt s.cfg a with
    | register b => exact .inr (.inr (.inr ⟨a, b, presentedByte s.cfg a b (s.mem.read a.toNat) v, h, by simp only [applyMove, h]⟩))
    | _ => exact .inr (.inr (.inl ⟨s.ports, rfl, by simp [applyMove, h]⟩))

end Sys2Proof.Machine
end

