-- ==== Sys2Proof/Laws/PerInstr.lean ====
section
/-! SUPPORT. Families of facts about the instructions as syntax, one lemma per constructor of Instr. -/

namespace Sys2Proof.Laws

/-- An instruction is 1, 2 or 3 bytes, its opcode first, and its length is how many bytes its encoding has (spec 30_encoding.md
R50). -/
def EncodedBytes.Statement (i : Instr) : Prop := 1 ≤ (encode i).length ∧ (encode i).length ≤ 3 ∧ i.length = (encode i).length

theorem EncodedBytes.brk : EncodedBytes.Statement .brk :=
  ⟨Nat.le_of_ble_eq_true rfl, Nat.le_of_ble_eq_true rfl, rfl⟩
theorem EncodedBytes.oraIndX (zz : Byte) : EncodedBytes.Statement (.oraIndX zz) :=
  ⟨Nat.le_of_ble_eq_true rfl, Nat.le_of_ble_eq_true rfl, rfl⟩
theorem EncodedBytes.jsrZpInd (zz : Byte) : EncodedBytes.Statement (.jsrZpInd zz) :=
  ⟨Nat.le_of_ble_eq_true rfl, Nat.le_of_ble_eq_true rfl, rfl⟩
theorem EncodedBytes.bbsA (i : BitNumber) (rr : Byte) : EncodedBytes.Statement (.bbsA i rr) :=
  ⟨Nat.le_of_ble_eq_true rfl, Nat.le_of_ble_eq_true rfl, rfl⟩
theorem EncodedBytes.oraZp (zz : Byte) : EncodedBytes.Statement (.oraZp zz) :=
  ⟨Nat.le_of_ble_eq_true rfl, Nat.le_of_ble_eq_true rfl, rfl⟩
theorem EncodedBytes.aslZp (zz : Byte) : EncodedBytes.Statement (.aslZp zz) :=
  ⟨Nat.le_of_ble_eq_true rfl, Nat.le_of_ble_eq_true rfl, rfl⟩
theorem EncodedBytes.bbsZp (i : BitNumber) (zz : Byte) (rr : Byte) : EncodedBytes.Statement (.bbsZp i zz rr) :=
  ⟨Nat.le_of_ble_eq_true rfl, Nat.le_of_ble_eq_true rfl, rfl⟩
theorem EncodedBytes.php : EncodedBytes.Statement .php :=
  ⟨Nat.le_of_ble_eq_true rfl, Nat.le_of_ble_eq_true rfl, rfl⟩
theorem EncodedBytes.oraImm (nn : Byte) : EncodedBytes.Statement (.oraImm nn) :=
  ⟨Nat.le_of_ble_eq_true rfl, Nat.le_of_ble_eq_true rfl, rfl⟩
theorem EncodedBytes.aslA : EncodedBytes.Statement .aslA :=
  ⟨Nat.le_of_ble_eq_true rfl, Nat.le_of_ble_eq_true rfl, rfl⟩
theorem EncodedBytes.sebA (i : BitNumber) : EncodedBytes.Statement (.sebA i) :=
  ⟨Nat.le_of_ble_eq_true rfl, Nat.le_of_ble_eq_true rfl, rfl⟩
theorem EncodedBytes.oraAbs (hhll : Word) : EncodedBytes.Statement (.oraAbs hhll) :=
  ⟨Nat.le_of_ble_eq_true rfl, Nat.le_of_ble_eq_true rfl, rfl⟩
theorem EncodedBytes.aslAbs (hhll : Word) : EncodedBytes.Statement (.aslAbs hhll) :=
  ⟨Nat.le_of_ble_eq_true rfl, Nat.le_of_ble_eq_true rfl, rfl⟩
theorem EncodedBytes.sebZp (i : BitNumber) (zz : Byte) : EncodedBytes.Statement (.sebZp i zz) :=
  ⟨Nat.le_of_ble_eq_true rfl, Nat.le_of_ble_eq_true rfl, rfl⟩
theorem EncodedBytes.bpl (rr : Byte) : EncodedBytes.Statement (.bpl rr) :=
  ⟨Nat.le_of_ble_eq_true rfl, Nat.le_of_ble_eq_true rfl, rfl⟩
theorem EncodedBytes.oraIndY (zz : Byte) : EncodedBytes.Statement (.oraIndY zz) :=
  ⟨Nat.le_of_ble_eq_true rfl, Nat.le_of_ble_eq_true rfl, rfl⟩
theorem EncodedBytes.clt : EncodedBytes.Statement .clt :=
  ⟨Nat.le_of_ble_eq_true rfl, Nat.le_of_ble_eq_true rfl, rfl⟩
theorem EncodedBytes.bbcA (i : BitNumber) (rr : Byte) : EncodedBytes.Statement (.bbcA i rr) :=
  ⟨Nat.le_of_ble_eq_true rfl, Nat.le_of_ble_eq_true rfl, rfl⟩
theorem EncodedBytes.oraZpX (zz : Byte) : EncodedBytes.Statement (.oraZpX zz) :=
  ⟨Nat.le_of_ble_eq_true rfl, Nat.le_of_ble_eq_true rfl, rfl⟩
theorem EncodedBytes.aslZpX (zz : Byte) : EncodedBytes.Statement (.aslZpX zz) :=
  ⟨Nat.le_of_ble_eq_true rfl, Nat.le_of_ble_eq_true rfl, rfl⟩
theorem EncodedBytes.bbcZp (i : BitNumber) (zz : Byte) (rr : Byte) : EncodedBytes.Statement (.bbcZp i zz rr) :=
  ⟨Nat.le_of_ble_eq_true rfl, Nat.le_of_ble_eq_true rfl, rfl⟩
theorem EncodedBytes.clc : EncodedBytes.Statement .clc :=
  ⟨Nat.le_of_ble_eq_true rfl, Nat.le_of_ble_eq_true rfl, rfl⟩
theorem EncodedBytes.oraAbsY (hhll : Word) : EncodedBytes.Statement (.oraAbsY hhll) :=
  ⟨Nat.le_of_ble_eq_true rfl, Nat.le_of_ble_eq_true rfl, rfl⟩
theorem EncodedBytes.decA : EncodedBytes.Statement .decA :=
  ⟨Nat.le_of_ble_eq_true rfl, Nat.le_of_ble_eq_true rfl, rfl⟩
theorem EncodedBytes.clbA (i : BitNumber) : EncodedBytes.Statement (.clbA i) :=
  ⟨Nat.le_of_ble_eq_true rfl, Nat.le_of_ble_eq_true rfl, rfl⟩
theorem EncodedBytes.oraAbsX (hhll : Word) : EncodedBytes.Statement (.oraAbsX hhll) :=
  ⟨Nat.le_of_ble_eq_true rfl, Nat.le_of_ble_eq_true rfl, rfl⟩
theorem EncodedBytes.aslAbsX (hhll : Word) : EncodedBytes.Statement (.aslAbsX hhll) :=
  ⟨Nat.le_of_ble_eq_true rfl, Nat.le_of_ble_eq_true rfl, rfl⟩
theorem EncodedBytes.clbZp (i : BitNumber) (zz : Byte) : EncodedBytes.Statement (.clbZp i zz) :=
  ⟨Nat.le_of_ble_eq_true rfl, Nat.le_of_ble_eq_true rfl, rfl⟩
theorem EncodedBytes.jsrAbs (hhll : Word) : EncodedBytes.Statement (.jsrAbs hhll) :=
  ⟨Nat.le_of_ble_eq_true rfl, Nat.le_of_ble_eq_true rfl, rfl⟩
theorem EncodedBytes.andIndX (zz : Byte) : EncodedBytes.Statement (.andIndX zz) :=
  ⟨Nat.le_of_ble_eq_true rfl, Nat.le_of_ble_eq_true rfl, rfl⟩
theorem EncodedBytes.jsrSp (hhll : Word) : EncodedBytes.Statement (.jsrSp hhll) :=
  ⟨Nat.le_of_ble_eq_true rfl, Nat.le_of_ble_eq_true rfl, rfl⟩
theorem EncodedBytes.bitZp (zz : Byte) : EncodedBytes.Statement (.bitZp zz) :=
  ⟨Nat.le_of_ble_eq_true rfl, Nat.le_of_ble_eq_true rfl, rfl⟩
theorem EncodedBytes.andZp (zz : Byte) : EncodedBytes.Statement (.andZp zz) :=
  ⟨Nat.le_of_ble_eq_true rfl, Nat.le_of_ble_eq_true rfl, rfl⟩
theorem EncodedBytes.rolZp (zz : Byte) : EncodedBytes.Statement (.rolZp zz) :=
  ⟨Nat.le_of_ble_eq_true rfl, Nat.le_of_ble_eq_true rfl, rfl⟩
theorem EncodedBytes.plp : EncodedBytes.Statement .plp :=
  ⟨Nat.le_of_ble_eq_true rfl, Nat.le_of_ble_eq_true rfl, rfl⟩
theorem EncodedBytes.andImm (nn : Byte) : EncodedBytes.Statement (.andImm nn) :=
  ⟨Nat.le_of_ble_eq_true rfl, Nat.le_of_ble_eq_true rfl, rfl⟩
theorem EncodedBytes.rolA : EncodedBytes.Statement .rolA :=
  ⟨Nat.le_of_ble_eq_true rfl, Nat.le_of_ble_eq_true rfl, rfl⟩
theorem EncodedBytes.bitAbs (hhll : Word) : EncodedBytes.Statement (.bitAbs hhll) :=
  ⟨Nat.le_of_ble_eq_true rfl, Nat.le_of_ble_eq_true rfl, rfl⟩
theorem EncodedBytes.andAbs (hhll : Word) : EncodedBytes.Statement (.andAbs hhll) :=
  ⟨Nat.le_of_ble_eq_true rfl, Nat.le_of_ble_eq_true rfl, rfl⟩
theorem EncodedBytes.rolAbs (hhll : Word) : EncodedBytes.Statement (.rolAbs hhll) :=
  ⟨Nat.le_of_ble_eq_true rfl, Nat.le_of_ble_eq_true rfl, rfl⟩
theorem EncodedBytes.bmi (rr : Byte) : EncodedBytes.Statement (.bmi rr) :=
  ⟨Nat.le_of_ble_eq_true rfl, Nat.le_of_ble_eq_true rfl, rfl⟩
theorem EncodedBytes.andIndY (zz : Byte) : EncodedBytes.Statement (.andIndY zz) :=
  ⟨Nat.le_of_ble_eq_true rfl, Nat.le_of_ble_eq_true rfl, rfl⟩
theorem EncodedBytes.set : EncodedBytes.Statement .set :=
  ⟨Nat.le_of_ble_eq_true rfl, Nat.le_of_ble_eq_true rfl, rfl⟩
theorem EncodedBytes.andZpX (zz : Byte) : EncodedBytes.Statement (.andZpX zz) :=
  ⟨Nat.le_of_ble_eq_true rfl, Nat.le_of_ble_eq_true rfl, rfl⟩
theorem EncodedBytes.rolZpX (zz : Byte) : EncodedBytes.Statement (.rolZpX zz) :=
  ⟨Nat.le_of_ble_eq_true rfl, Nat.le_of_ble_eq_true rfl, rfl⟩
theorem EncodedBytes.sec : EncodedBytes.Statement .sec :=
  ⟨Nat.le_of_ble_eq_true rfl, Nat.le_of_ble_eq_true rfl, rfl⟩
theorem EncodedBytes.andAbsY (hhll : Word) : EncodedBytes.Statement (.andAbsY hhll) :=
  ⟨Nat.le_of_ble_eq_true rfl, Nat.le_of_ble_eq_true rfl, rfl⟩
theorem EncodedBytes.incA : EncodedBytes.Statement .incA :=
  ⟨Nat.le_of_ble_eq_true rfl, Nat.le_of_ble_eq_true rfl, rfl⟩
theorem EncodedBytes.ldm (nn : Byte) (zz : Byte) : EncodedBytes.Statement (.ldm nn zz) :=
  ⟨Nat.le_of_ble_eq_true rfl, Nat.le_of_ble_eq_true rfl, rfl⟩
theorem EncodedBytes.andAbsX (hhll : Word) : EncodedBytes.Statement (.andAbsX hhll) :=
  ⟨Nat.le_of_ble_eq_true rfl, Nat.le_of_ble_eq_true rfl, rfl⟩
theorem EncodedBytes.rolAbsX (hhll : Word) : EncodedBytes.Statement (.rolAbsX hhll) :=
  ⟨Nat.le_of_ble_eq_true rfl, Nat.le_of_ble_eq_true rfl, rfl⟩
theorem EncodedBytes.rti : EncodedBytes.Statement .rti :=
  ⟨Nat.le_of_ble_eq_true rfl, Nat.le_of_ble_eq_true rfl, rfl⟩
theorem EncodedBytes.eorIndX (zz : Byte) : EncodedBytes.Statement (.eorIndX zz) :=
  ⟨Nat.le_of_ble_eq_true rfl, Nat.le_of_ble_eq_true rfl, rfl⟩
theorem EncodedBytes.stp : EncodedBytes.Statement .stp :=
  ⟨Nat.le_of_ble_eq_true rfl, Nat.le_of_ble_eq_true rfl, rfl⟩
theorem EncodedBytes.comZp (zz : Byte) : EncodedBytes.Statement (.comZp zz) :=
  ⟨Nat.le_of_ble_eq_true rfl, Nat.le_of_ble_eq_true rfl, rfl⟩
theorem EncodedBytes.eorZp (zz : Byte) : EncodedBytes.Statement (.eorZp zz) :=
  ⟨Nat.le_of_ble_eq_true rfl, Nat.le_of_ble_eq_true rfl, rfl⟩
theorem EncodedBytes.lsrZp (zz : Byte) : EncodedBytes.Statement (.lsrZp zz) :=
  ⟨Nat.le_of_ble_eq_true rfl, Nat.le_of_ble_eq_true rfl, rfl⟩
theorem EncodedBytes.pha : EncodedBytes.Statement .pha :=
  ⟨Nat.le_of_ble_eq_true rfl, Nat.le_of_ble_eq_true rfl, rfl⟩
theorem EncodedBytes.eorImm (nn : Byte) : EncodedBytes.Statement (.eorImm nn) :=
  ⟨Nat.le_of_ble_eq_true rfl, Nat.le_of_ble_eq_true rfl, rfl⟩
theorem EncodedBytes.lsrA : EncodedBytes.Statement .lsrA :=
  ⟨Nat.le_of_ble_eq_true rfl, Nat.le_of_ble_eq_true rfl, rfl⟩
theorem EncodedBytes.jmpAbs (hhll : Word) : EncodedBytes.Statement (.jmpAbs hhll) :=
  ⟨Nat.le_of_ble_eq_true rfl, Nat.le_of_ble_eq_true rfl, rfl⟩
theorem EncodedBytes.eorAbs (hhll : Word) : EncodedBytes.Statement (.eorAbs hhll) :=
  ⟨Nat.le_of_ble_eq_true rfl, Nat.le_of_ble_eq_true rfl, rfl⟩
theorem EncodedBytes.lsrAbs (hhll : Word) : EncodedBytes.Statement (.lsrAbs hhll) :=
  ⟨Nat.le_of_ble_eq_true rfl, Nat.le_of_ble_eq_true rfl, rfl⟩
theorem EncodedBytes.bvc (rr : Byte) : EncodedBytes.Statement (.bvc rr) :=
  ⟨Nat.le_of_ble_eq_true rfl, Nat.le_of_ble_eq_true rfl, rfl⟩
theorem EncodedBytes.eorIndY (zz : Byte) : EncodedBytes.Statement (.eorIndY zz) :=
  ⟨Nat.le_of_ble_eq_true rfl, Nat.le_of_ble_eq_true rfl, rfl⟩
theorem EncodedBytes.eorZpX (zz : Byte) : EncodedBytes.Statement (.eorZpX zz) :=
  ⟨Nat.le_of_ble_eq_true rfl, Nat.le_of_ble_eq_true rfl, rfl⟩
theorem EncodedBytes.lsrZpX (zz : Byte) : EncodedBytes.Statement (.lsrZpX zz) :=
  ⟨Nat.le_of_ble_eq_true rfl, Nat.le_of_ble_eq_true rfl, rfl⟩
theorem EncodedBytes.cli : EncodedBytes.Statement .cli :=
  ⟨Nat.le_of_ble_eq_true rfl, Nat.le_of_ble_eq_true rfl, rfl⟩
theorem EncodedBytes.eorAbsY (hhll : Word) : EncodedBytes.Statement (.eorAbsY hhll) :=
  ⟨Nat.le_of_ble_eq_true rfl, Nat.le_of_ble_eq_true rfl, rfl⟩
theorem EncodedBytes.eorAbsX (hhll : Word) : EncodedBytes.Statement (.eorAbsX hhll) :=
  ⟨Nat.le_of_ble_eq_true rfl, Nat.le_of_ble_eq_true rfl, rfl⟩
theorem EncodedBytes.lsrAbsX (hhll : Word) : EncodedBytes.Statement (.lsrAbsX hhll) :=
  ⟨Nat.le_of_ble_eq_true rfl, Nat.le_of_ble_eq_true rfl, rfl⟩
theorem EncodedBytes.rts : EncodedBytes.Statement .rts :=
  ⟨Nat.le_of_ble_eq_true rfl, Nat.le_of_ble_eq_true rfl, rfl⟩
theorem EncodedBytes.adcIndX (zz : Byte) : EncodedBytes.Statement (.adcIndX zz) :=
  ⟨Nat.le_of_ble_eq_true rfl, Nat.le_of_ble_eq_true rfl, rfl⟩
theorem EncodedBytes.mulZpX (zz : Byte) : EncodedBytes.Statement (.mulZpX zz) :=
  ⟨Nat.le_of_ble_eq_true rfl, Nat.le_of_ble_eq_true rfl, rfl⟩
theorem EncodedBytes.tstZp (zz : Byte) : EncodedBytes.Statement (.tstZp zz) :=
  ⟨Nat.le_of_ble_eq_true rfl, Nat.le_of_ble_eq_true rfl, rfl⟩
theorem EncodedBytes.adcZp (zz : Byte) : EncodedBytes.Statement (.adcZp zz) :=
  ⟨Nat.le_of_ble_eq_true rfl, Nat.le_of_ble_eq_true rfl, rfl⟩
theorem EncodedBytes.rorZp (zz : Byte) : EncodedBytes.Statement (.rorZp zz) :=
  ⟨Nat.le_of_ble_eq_true rfl, Nat.le_of_ble_eq_true rfl, rfl⟩
theorem EncodedBytes.pla : EncodedBytes.Statement .pla :=
  ⟨Nat.le_of_ble_eq_true rfl, Nat.le_of_ble_eq_true rfl, rfl⟩
theorem EncodedBytes.adcImm (nn : Byte) : EncodedBytes.Statement (.adcImm nn) :=
  ⟨Nat.le_of_ble_eq_true rfl, Nat.le_of_ble_eq_true rfl, rfl⟩
theorem EncodedBytes.rorA : EncodedBytes.Statement .rorA :=
  ⟨Nat.le_of_ble_eq_true rfl, Nat.le_of_ble_eq_true rfl, rfl⟩
theorem EncodedBytes.jmpInd (hhll : Word) : EncodedBytes.Statement (.jmpInd hhll) :=
  ⟨Nat.le_of_ble_eq_true rfl, Nat.le_of_ble_eq_true rfl, rfl⟩
theorem EncodedBytes.adcAbs (hhll : Word) : EncodedBytes.Statement (.adcAbs hhll) :=
  ⟨Nat.le_of_ble_eq_true rfl, Nat.le_of_ble_eq_true rfl, rfl⟩
theorem EncodedBytes.rorAbs (hhll : Word) : EncodedBytes.Statement (.rorAbs hhll) :=
  ⟨Nat.le_of_ble_eq_true rfl, Nat.le_of_ble_eq_true rfl, rfl⟩
theorem EncodedBytes.bvs (rr : Byte) : EncodedBytes.Statement (.bvs rr) :=
  ⟨Nat.le_of_ble_eq_true rfl, Nat.le_of_ble_eq_true rfl, rfl⟩
theorem EncodedBytes.adcIndY (zz : Byte) : EncodedBytes.Statement (.adcIndY zz) :=
  ⟨Nat.le_of_ble_eq_true rfl, Nat.le_of_ble_eq_true rfl, rfl⟩
theorem EncodedBytes.adcZpX (zz : Byte) : EncodedBytes.Statement (.adcZpX zz) :=
  ⟨Nat.le_of_ble_eq_true rfl, Nat.le_of_ble_eq_true rfl, rfl⟩
theorem EncodedBytes.rorZpX (zz : Byte) : EncodedBytes.Statement (.rorZpX zz) :=
  ⟨Nat.le_of_ble_eq_true rfl, Nat.le_of_ble_eq_true rfl, rfl⟩
theorem EncodedBytes.sei : EncodedBytes.Statement .sei :=
  ⟨Nat.le_of_ble_eq_true rfl, Nat.le_of_ble_eq_true rfl, rfl⟩
theorem EncodedBytes.adcAbsY (hhll : Word) : EncodedBytes.Statement (.adcAbsY hhll) :=
  ⟨Nat.le_of_ble_eq_true rfl, Nat.le_of_ble_eq_true rfl, rfl⟩
theorem EncodedBytes.adcAbsX (hhll : Word) : EncodedBytes.Statement (.adcAbsX hhll) :=
  ⟨Nat.le_of_ble_eq_true rfl, Nat.le_of_ble_eq_true rfl, rfl⟩
theorem EncodedBytes.rorAbsX (hhll : Word) : EncodedBytes.Statement (.rorAbsX hhll) :=
  ⟨Nat.le_of_ble_eq_true rfl, Nat.le_of_ble_eq_true rfl, rfl⟩
theorem EncodedBytes.bra (rr : Byte) : EncodedBytes.Statement (.bra rr) :=
  ⟨Nat.le_of_ble_eq_true rfl, Nat.le_of_ble_eq_true rfl, rfl⟩
theorem EncodedBytes.staIndX (zz : Byte) : EncodedBytes.Statement (.staIndX zz) :=
  ⟨Nat.le_of_ble_eq_true rfl, Nat.le_of_ble_eq_true rfl, rfl⟩
theorem EncodedBytes.rrfZp (zz : Byte) : EncodedBytes.Statement (.rrfZp zz) :=
  ⟨Nat.le_of_ble_eq_true rfl, Nat.le_of_ble_eq_true rfl, rfl⟩
theorem EncodedBytes.styZp (zz : Byte) : EncodedBytes.Statement (.styZp zz) :=
  ⟨Nat.le_of_ble_eq_true rfl, Nat.le_of_ble_eq_true rfl, rfl⟩
theorem EncodedBytes.staZp (zz : Byte) : EncodedBytes.Statement (.staZp zz) :=
  ⟨Nat.le_of_ble_eq_true rfl, Nat.le_of_ble_eq_true rfl, rfl⟩
theorem EncodedBytes.stxZp (zz : Byte) : EncodedBytes.Statement (.stxZp zz) :=
  ⟨Nat.le_of_ble_eq_true rfl, Nat.le_of_ble_eq_true rfl, rfl⟩
theorem EncodedBytes.dey : EncodedBytes.Statement .dey :=
  ⟨Nat.le_of_ble_eq_true rfl, Nat.le_of_ble_eq_true rfl, rfl⟩
theorem EncodedBytes.txa : EncodedBytes.Statement .txa :=
  ⟨Nat.le_of_ble_eq_true rfl, Nat.le_of_ble_eq_true rfl, rfl⟩
theorem EncodedBytes.styAbs (hhll : Word) : EncodedBytes.Statement (.styAbs hhll) :=
  ⟨Nat.le_of_ble_eq_true rfl, Nat.le_of_ble_eq_true rfl, rfl⟩
theorem EncodedBytes.staAbs (hhll : Word) : EncodedBytes.Statement (.staAbs hhll) :=
  ⟨Nat.le_of_ble_eq_true rfl, Nat.le_of_ble_eq_true rfl, rfl⟩
theorem EncodedBytes.stxAbs (hhll : Word) : EncodedBytes.Statement (.stxAbs hhll) :=
  ⟨Nat.le_of_ble_eq_true rfl, Nat.le_of_ble_eq_true rfl, rfl⟩
theorem EncodedBytes.bcc (rr : Byte) : EncodedBytes.Statement (.bcc rr) :=
  ⟨Nat.le_of_ble_eq_true rfl, Nat.le_of_ble_eq_true rfl, rfl⟩
theorem EncodedBytes.staIndY (zz : Byte) : EncodedBytes.Statement (.staIndY zz) :=
  ⟨Nat.le_of_ble_eq_true rfl, Nat.le_of_ble_eq_true rfl, rfl⟩
theorem EncodedBytes.styZpX (zz : Byte) : EncodedBytes.Statement (.styZpX zz) :=
  ⟨Nat.le_of_ble_eq_true rfl, Nat.le_of_ble_eq_true rfl, rfl⟩
theorem EncodedBytes.staZpX (zz : Byte) : EncodedBytes.Statement (.staZpX zz) :=
  ⟨Nat.le_of_ble_eq_true rfl, Nat.le_of_ble_eq_true rfl, rfl⟩
theorem EncodedBytes.stxZpY (zz : Byte) : EncodedBytes.Statement (.stxZpY zz) :=
  ⟨Nat.le_of_ble_eq_true rfl, Nat.le_of_ble_eq_true rfl, rfl⟩
theorem EncodedBytes.tya : EncodedBytes.Statement .tya :=
  ⟨Nat.le_of_ble_eq_true rfl, Nat.le_of_ble_eq_true rfl, rfl⟩
theorem EncodedBytes.staAbsY (hhll : Word) : EncodedBytes.Statement (.staAbsY hhll) :=
  ⟨Nat.le_of_ble_eq_true rfl, Nat.le_of_ble_eq_true rfl, rfl⟩
theorem EncodedBytes.txs : EncodedBytes.Statement .txs :=
  ⟨Nat.le_of_ble_eq_true rfl, Nat.le_of_ble_eq_true rfl, rfl⟩
theorem EncodedBytes.staAbsX (hhll : Word) : EncodedBytes.Statement (.staAbsX hhll) :=
  ⟨Nat.le_of_ble_eq_true rfl, Nat.le_of_ble_eq_true rfl, rfl⟩
theorem EncodedBytes.ldyImm (nn : Byte) : EncodedBytes.Statement (.ldyImm nn) :=
  ⟨Nat.le_of_ble_eq_true rfl, Nat.le_of_ble_eq_true rfl, rfl⟩
theorem EncodedBytes.ldaIndX (zz : Byte) : EncodedBytes.Statement (.ldaIndX zz) :=
  ⟨Nat.le_of_ble_eq_true rfl, Nat.le_of_ble_eq_true rfl, rfl⟩
theorem EncodedBytes.ldxImm (nn : Byte) : EncodedBytes.Statement (.ldxImm nn) :=
  ⟨Nat.le_of_ble_eq_true rfl, Nat.le_of_ble_eq_true rfl, rfl⟩
theorem EncodedBytes.ldyZp (zz : Byte) : EncodedBytes.Statement (.ldyZp zz) :=
  ⟨Nat.le_of_ble_eq_true rfl, Nat.le_of_ble_eq_true rfl, rfl⟩
theorem EncodedBytes.ldaZp (zz : Byte) : EncodedBytes.Statement (.ldaZp zz) :=
  ⟨Nat.le_of_ble_eq_true rfl, Nat.le_of_ble_eq_true rfl, rfl⟩
theorem EncodedBytes.ldxZp (zz : Byte) : EncodedBytes.Statement (.ldxZp zz) :=
  ⟨Nat.le_of_ble_eq_true rfl, Nat.le_of_ble_eq_true rfl, rfl⟩
theorem EncodedBytes.tay : EncodedBytes.Statement .tay :=
  ⟨Nat.le_of_ble_eq_true rfl, Nat.le_of_ble_eq_true rfl, rfl⟩
theorem EncodedBytes.ldaImm (nn : Byte) : EncodedBytes.Statement (.ldaImm nn) :=
  ⟨Nat.le_of_ble_eq_true rfl, Nat.le_of_ble_eq_true rfl, rfl⟩
theorem EncodedBytes.tax : EncodedBytes.Statement .tax :=
  ⟨Nat.le_of_ble_eq_true rfl, Nat.le_of_ble_eq_true rfl, rfl⟩
theorem EncodedBytes.ldyAbs (hhll : Word) : EncodedBytes.Statement (.ldyAbs hhll) :=
  ⟨Nat.le_of_ble_eq_true rfl, Nat.le_of_ble_eq_true rfl, rfl⟩
theorem EncodedBytes.ldaAbs (hhll : Word) : EncodedBytes.Statement (.ldaAbs hhll) :=
  ⟨Nat.le_of_ble_eq_true rfl, Nat.le_of_ble_eq_true rfl, rfl⟩
theorem EncodedBytes.ldxAbs (hhll : Word) : EncodedBytes.Statement (.ldxAbs hhll) :=
  ⟨Nat.le_of_ble_eq_true rfl, Nat.le_of_ble_eq_true rfl, rfl⟩
theorem EncodedBytes.bcs (rr : Byte) : EncodedBytes.Statement (.bcs rr) :=
  ⟨Nat.le_of_ble_eq_true rfl, Nat.le_of_ble_eq_true rfl, rfl⟩
theorem EncodedBytes.ldaIndY (zz : Byte) : EncodedBytes.Statement (.ldaIndY zz) :=
  ⟨Nat.le_of_ble_eq_true rfl, Nat.le_of_ble_eq_true rfl, rfl⟩
theorem EncodedBytes.jmpZpInd (zz : Byte) : EncodedBytes.Statement (.jmpZpInd zz) :=
  ⟨Nat.le_of_ble_eq_true rfl, Nat.le_of_ble_eq_true rfl, rfl⟩
theorem EncodedBytes.ldyZpX (zz : Byte) : EncodedBytes.Statement (.ldyZpX zz) :=
  ⟨Nat.le_of_ble_eq_true rfl, Nat.le_of_ble_eq_true rfl, rfl⟩
theorem EncodedBytes.ldaZpX (zz : Byte) : EncodedBytes.Statement (.ldaZpX zz) :=
  ⟨Nat.le_of_ble_eq_true rfl, Nat.le_of_ble_eq_true rfl, rfl⟩
theorem EncodedBytes.ldxZpY (zz : Byte) : EncodedBytes.Statement (.ldxZpY zz) :=
  ⟨Nat.le_of_ble_eq_true rfl, Nat.le_of_ble_eq_true rfl, rfl⟩
theorem EncodedBytes.clv : EncodedBytes.Statement .clv :=
  ⟨Nat.le_of_ble_eq_true rfl, Nat.le_of_ble_eq_true rfl, rfl⟩
theorem EncodedBytes.ldaAbsY (hhll : Word) : EncodedBytes.Statement (.ldaAbsY hhll) :=
  ⟨Nat.le_of_ble_eq_true rfl, Nat.le_of_ble_eq_true rfl, rfl⟩
theorem EncodedBytes.tsx : EncodedBytes.Statement .tsx :=
  ⟨Nat.le_of_ble_eq_true rfl, Nat.le_of_ble_eq_true rfl, rfl⟩
theorem EncodedBytes.ldyAbsX (hhll : Word) : EncodedBytes.Statement (.ldyAbsX hhll) :=
  ⟨Nat.le_of_ble_eq_true rfl, Nat.le_of_ble_eq_true rfl, rfl⟩
theorem EncodedBytes.ldaAbsX (hhll : Word) : EncodedBytes.Statement (.ldaAbsX hhll) :=
  ⟨Nat.le_of_ble_eq_true rfl, Nat.le_of_ble_eq_true rfl, rfl⟩
theorem EncodedBytes.ldxAbsY (hhll : Word) : EncodedBytes.Statement (.ldxAbsY hhll) :=
  ⟨Nat.le_of_ble_eq_true rfl, Nat.le_of_ble_eq_true rfl, rfl⟩
theorem EncodedBytes.cpyImm (nn : Byte) : EncodedBytes.Statement (.cpyImm nn) :=
  ⟨Nat.le_of_ble_eq_true rfl, Nat.le_of_ble_eq_true rfl, rfl⟩
theorem EncodedBytes.cmpIndX (zz : Byte) : EncodedBytes.Statement (.cmpIndX zz) :=
  ⟨Nat.le_of_ble_eq_true rfl, Nat.le_of_ble_eq_true rfl, rfl⟩
theorem EncodedBytes.wit : EncodedBytes.Statement .wit :=
  ⟨Nat.le_of_ble_eq_true rfl, Nat.le_of_ble_eq_true rfl, rfl⟩
theorem EncodedBytes.cpyZp (zz : Byte) : EncodedBytes.Statement (.cpyZp zz) :=
  ⟨Nat.le_of_ble_eq_true rfl, Nat.le_of_ble_eq_true rfl, rfl⟩
theorem EncodedBytes.cmpZp (zz : Byte) : EncodedBytes.Statement (.cmpZp zz) :=
  ⟨Nat.le_of_ble_eq_true rfl, Nat.le_of_ble_eq_true rfl, rfl⟩
theorem EncodedBytes.decZp (zz : Byte) : EncodedBytes.Statement (.decZp zz) :=
  ⟨Nat.le_of_ble_eq_true rfl, Nat.le_of_ble_eq_true rfl, rfl⟩
theorem EncodedBytes.iny : EncodedBytes.Statement .iny :=
  ⟨Nat.le_of_ble_eq_true rfl, Nat.le_of_ble_eq_true rfl, rfl⟩
theorem EncodedBytes.cmpImm (nn : Byte) : EncodedBytes.Statement (.cmpImm nn) :=
  ⟨Nat.le_of_ble_eq_true rfl, Nat.le_of_ble_eq_true rfl, rfl⟩
theorem EncodedBytes.dex : EncodedBytes.Statement .dex :=
  ⟨Nat.le_of_ble_eq_true rfl, Nat.le_of_ble_eq_true rfl, rfl⟩
theorem EncodedBytes.cpyAbs (hhll : Word) : EncodedBytes.Statement (.cpyAbs hhll) :=
  ⟨Nat.le_of_ble_eq_true rfl, Nat.le_of_ble_eq_true rfl, rfl⟩
theorem EncodedBytes.cmpAbs (hhll : Word) : EncodedBytes.Statement (.cmpAbs hhll) :=
  ⟨Nat.le_of_ble_eq_true rfl, Nat.le_of_ble_eq_true rfl, rfl⟩
theorem EncodedBytes.decAbs (hhll : Word) : EncodedBytes.Statement (.decAbs hhll) :=
  ⟨Nat.le_of_ble_eq_true rfl, Nat.le_of_ble_eq_true rfl, rfl⟩
theorem EncodedBytes.bne (rr : Byte) : EncodedBytes.Statement (.bne rr) :=
  ⟨Nat.le_of_ble_eq_true rfl, Nat.le_of_ble_eq_true rfl, rfl⟩
theorem EncodedBytes.cmpIndY (zz : Byte) : EncodedBytes.Statement (.cmpIndY zz) :=
  ⟨Nat.le_of_ble_eq_true rfl, Nat.le_of_ble_eq_true rfl, rfl⟩
theorem EncodedBytes.cmpZpX (zz : Byte) : EncodedBytes.Statement (.cmpZpX zz) :=
  ⟨Nat.le_of_ble_eq_true rfl, Nat.le_of_ble_eq_true rfl, rfl⟩
theorem EncodedBytes.decZpX (zz : Byte) : EncodedBytes.Statement (.decZpX zz) :=
  ⟨Nat.le_of_ble_eq_true rfl, Nat.le_of_ble_eq_true rfl, rfl⟩
theorem EncodedBytes.cld : EncodedBytes.Statement .cld :=
  ⟨Nat.le_of_ble_eq_true rfl, Nat.le_of_ble_eq_true rfl, rfl⟩
theorem EncodedBytes.cmpAbsY (hhll : Word) : EncodedBytes.Statement (.cmpAbsY hhll) :=
  ⟨Nat.le_of_ble_eq_true rfl, Nat.le_of_ble_eq_true rfl, rfl⟩
theorem EncodedBytes.cmpAbsX (hhll : Word) : EncodedBytes.Statement (.cmpAbsX hhll) :=
  ⟨Nat.le_of_ble_eq_true rfl, Nat.le_of_ble_eq_true rfl, rfl⟩
theorem EncodedBytes.decAbsX (hhll : Word) : EncodedBytes.Statement (.decAbsX hhll) :=
  ⟨Nat.le_of_ble_eq_true rfl, Nat.le_of_ble_eq_true rfl, rfl⟩
theorem EncodedBytes.cpxImm (nn : Byte) : EncodedBytes.Statement (.cpxImm nn) :=
  ⟨Nat.le_of_ble_eq_true rfl, Nat.le_of_ble_eq_true rfl, rfl⟩
theorem EncodedBytes.sbcIndX (zz : Byte) : EncodedBytes.Statement (.sbcIndX zz) :=
  ⟨Nat.le_of_ble_eq_true rfl, Nat.le_of_ble_eq_true rfl, rfl⟩
theorem EncodedBytes.divZpX (zz : Byte) : EncodedBytes.Statement (.divZpX zz) :=
  ⟨Nat.le_of_ble_eq_true rfl, Nat.le_of_ble_eq_true rfl, rfl⟩
theorem EncodedBytes.cpxZp (zz : Byte) : EncodedBytes.Statement (.cpxZp zz) :=
  ⟨Nat.le_of_ble_eq_true rfl, Nat.le_of_ble_eq_true rfl, rfl⟩
theorem EncodedBytes.sbcZp (zz : Byte) : EncodedBytes.Statement (.sbcZp zz) :=
  ⟨Nat.le_of_ble_eq_true rfl, Nat.le_of_ble_eq_true rfl, rfl⟩
theorem EncodedBytes.incZp (zz : Byte) : EncodedBytes.Statement (.incZp zz) :=
  ⟨Nat.le_of_ble_eq_true rfl, Nat.le_of_ble_eq_true rfl, rfl⟩
theorem EncodedBytes.inx : EncodedBytes.Statement .inx :=
  ⟨Nat.le_of_ble_eq_true rfl, Nat.le_of_ble_eq_true rfl, rfl⟩
theorem EncodedBytes.sbcImm (nn : Byte) : EncodedBytes.Statement (.sbcImm nn) :=
  ⟨Nat.le_of_ble_eq_true rfl, Nat.le_of_ble_eq_true rfl, rfl⟩
theorem EncodedBytes.nop : EncodedBytes.Statement .nop :=
  ⟨Nat.le_of_ble_eq_true rfl, Nat.le_of_ble_eq_true rfl, rfl⟩
theorem EncodedBytes.cpxAbs (hhll : Word) : EncodedBytes.Statement (.cpxAbs hhll) :=
  ⟨Nat.le_of_ble_eq_true rfl, Nat.le_of_ble_eq_true rfl, rfl⟩
theorem EncodedBytes.sbcAbs (hhll : Word) : EncodedBytes.Statement (.sbcAbs hhll) :=
  ⟨Nat.le_of_ble_eq_true rfl, Nat.le_of_ble_eq_true rfl, rfl⟩
theorem EncodedBytes.incAbs (hhll : Word) : EncodedBytes.Statement (.incAbs hhll) :=
  ⟨Nat.le_of_ble_eq_true rfl, Nat.le_of_ble_eq_true rfl, rfl⟩
theorem EncodedBytes.beq (rr : Byte) : EncodedBytes.Statement (.beq rr) :=
  ⟨Nat.le_of_ble_eq_true rfl, Nat.le_of_ble_eq_true rfl, rfl⟩
theorem EncodedBytes.sbcIndY (zz : Byte) : EncodedBytes.Statement (.sbcIndY zz) :=
  ⟨Nat.le_of_ble_eq_true rfl, Nat.le_of_ble_eq_true rfl, rfl⟩
theorem EncodedBytes.sbcZpX (zz : Byte) : EncodedBytes.Statement (.sbcZpX zz) :=
  ⟨Nat.le_of_ble_eq_true rfl, Nat.le_of_ble_eq_true rfl, rfl⟩
theorem EncodedBytes.incZpX (zz : Byte) : EncodedBytes.Statement (.incZpX zz) :=
  ⟨Nat.le_of_ble_eq_true rfl, Nat.le_of_ble_eq_true rfl, rfl⟩
theorem EncodedBytes.sed : EncodedBytes.Statement .sed :=
  ⟨Nat.le_of_ble_eq_true rfl, Nat.le_of_ble_eq_true rfl, rfl⟩
theorem EncodedBytes.sbcAbsY (hhll : Word) : EncodedBytes.Statement (.sbcAbsY hhll) :=
  ⟨Nat.le_of_ble_eq_true rfl, Nat.le_of_ble_eq_true rfl, rfl⟩
theorem EncodedBytes.sbcAbsX (hhll : Word) : EncodedBytes.Statement (.sbcAbsX hhll) :=
  ⟨Nat.le_of_ble_eq_true rfl, Nat.le_of_ble_eq_true rfl, rfl⟩
theorem EncodedBytes.incAbsX (hhll : Word) : EncodedBytes.Statement (.incAbsX hhll) :=
  ⟨Nat.le_of_ble_eq_true rfl, Nat.le_of_ble_eq_true rfl, rfl⟩

end Sys2Proof.Laws
end

