-- ==== Sys2Proof/Laws/Shapes.lean ====
section
/-! SUPPORT. For each shape of meaning, what it can do, said once: if it answers next `t`, the operand was formed and `t` is this. -/

namespace Sys2Proof.Machine

/-- The second byte of a zero-page item exists unless it starts at 0xFF and the product's wrap is unknown (spec 20_memory.md R49). -/
theorem secondByte_ok {w : ZeroPagePointerWrap} {p : Byte} (h : p ≠ 0xFF#8 ∨ w ≠ .refuse) : ∃ a, secondByte w p = .ok a := by
  unfold secondByte
  split
  · next hp =>
    cases w with
    | refuse => rcases h with h | h <;> exact absurd (by assumption) (by simp_all)
    | wrapInZeroPage => exact ⟨_, rfl⟩
    | crossToPage1 => exact ⟨_, rfl⟩
  · exact ⟨_, rfl⟩

theorem secondByte_error {w : ZeroPagePointerWrap} {p : Byte} {r : Refusal} (h : secondByte w p = .error r) :
    p = 0xFF#8 ∧ w = .refuse ∧ r = .zeroPagePointerPageEnd := by
  unfold secondByte at h
  split at h
  · next hp => cases w <;> simp_all
  · cases h

theorem zeroPagePointer_error {s : State} {p : Byte} {r : Refusal} (h : s.zeroPagePointer p = .error r) :
    p = 0xFF#8 ∧ s.cfg.zeroPagePointerWrap = .refuse ∧ r = .zeroPagePointerPageEnd := by
  unfold State.zeroPagePointer at h
  cases hs : secondByte s.cfg.zeroPagePointerWrap p with
  | ok a => simp [hs] at h
  | error e =>
    obtain ⟨h1, h2, h3⟩ := secondByte_error hs
    simp only [hs, Except.error.injEq] at h
    exact ⟨h1, h2, h ▸ h3⟩

/-- Only the two indirect modes can be refused, and only at a page end (spec 40_addressing_modes.md R71, R72, 20_memory.md R49). -/
theorem address_error {m : MemMode} {s : State} {r : Refusal} (h : m.address s = .error r) :
    s.cfg.zeroPagePointerWrap = .refuse ∧ r = .zeroPagePointerPageEnd ∧
    ((∃ zz, m = .indX zz ∧ zz + s.x = 0xFF#8) ∨ m = .indY 0xFF#8) := by
  cases m with
  | indX zz =>
    obtain ⟨h1, h2, h3⟩ := zeroPagePointer_error h
    exact ⟨h2, h3, .inl ⟨zz, rfl, h1⟩⟩
  | indY zz =>
    simp only [MemMode.address] at h
    cases hp : s.zeroPagePointer zz with
    | ok b => simp [hp] at h
    | error e =>
      obtain ⟨h1, h2, h3⟩ := zeroPagePointer_error hp
      simp only [hp, Except.error.injEq] at h
      exact ⟨h2, h ▸ h3, .inr (by rw [h1])⟩
  | _ => simp [MemMode.address] at h

theorem read_mem_ok {m : MemMode} {s : State} {v : Byte} :
    (Operand.mem m).read s = .ok v ↔ ∃ ea, m.address s = .ok ea ∧ v = s.busRead .data ea := by
  simp only [Operand.read]
  cases m.address s with
  | ok ea => simp [eq_comm]
  | error r => simp

theorem read_error {o : Operand} {s : State} {r : Refusal} (h : o.read s = .error r) :
    ∃ m, o = .mem m ∧ m.address s = .error r := by
  cases o with
  | imm nn => simp [Operand.read] at h
  | mem m =>
    refine ⟨m, rfl, ?_⟩
    simp only [Operand.read] at h
    cases hm : m.address s with
    | ok ea => simp [hm] at h
    | error e => simpa [hm] using h

/-- An address depends on X, Y and on what the reads depend on. -/
theorem address_congr {s t : State} (hx : t.x = s.x) (hy : t.y = s.y) (hc : t.cfg = s.cfg) (hm : t.mem = s.mem)
    (hp : t.ports = s.ports) (hd : t.draws = s.draws) (m : MemMode) : m.address t = m.address s := by
  have hb := busRead_congr hc hm hp hd
  cases m <;> simp [MemMode.address, State.zeroPagePointer, hx, hy, hc, hb]

theorem loadDestination_next {n : Nat} {o : Operand} {s t : State} :
    loadDestination n o s = .next t ↔
      ∃ v, o.read s = .ok v ∧ t = { (s.advance n).dstWrite v with ps := setNZ s.ps v } := proceed_next

theorem accumulate_next {n : Nat} {f : Byte → Byte → Byte → Computed} {o : Operand} {s t : State} :
    accumulate n f o s = .next t ↔ ∃ m, o.read s = .ok m ∧
      t = { (s.advance n).dstWrite (f s.ps s.dstRead m).value with ps := (f s.ps s.dstRead m).ps } := proceed_next

theorem compareDestination_next {n : Nat} {o : Operand} {s t : State} :
    compareDestination n o s = .next t ↔
      ∃ m, o.read s = .ok m ∧ t = { s.advance n with ps := comparePS s.ps s.dstRead m } := proceed_next

theorem compareRegister_next {n : Nat} {d : Byte} {o : Operand} {s t : State} :
    compareRegister n d o s = .next t ↔ ∃ m, o.read s = .ok m ∧ t = { s.advance n with ps := comparePS s.ps d m } :=
  proceed_next

theorem loadX_next {n : Nat} {o : Operand} {s t : State} :
    loadX n o s = .next t ↔ ∃ v, o.read s = .ok v ∧ t = { s.advance n with x := v, ps := setNZ s.ps v } := proceed_next

theorem loadY_next {n : Nat} {o : Operand} {s t : State} :
    loadY n o s = .next t ↔ ∃ v, o.read s = .ok v ∧ t = { s.advance n with y := v, ps := setNZ s.ps v } := proceed_next

theorem store_next {n : Nat} {v : Byte} {m : MemMode} {s t : State} :
    store n v m s = .next t ↔ ∃ ea, m.address s = .ok ea ∧ t = (s.advance n).busWrite ea v := proceed_next

theorem testMemory_next {n : Nat} {f : Byte → Byte → Byte} {m : MemMode} {s t : State} :
    testMemory n f m s = .next t ↔
      ∃ ea, m.address s = .ok ea ∧ t = { s.advance n with ps := f s.ps (s.busRead .data ea) } := proceed_next

theorem modifyMemory_next {n : Nat} {f : Byte → Byte → Computed} {m : MemMode} {s t : State} :
    modifyMemory n f m s = .next t ↔ ∃ ea, m.address s = .ok ea ∧
      t = { (s.advance n).busWrite ea (f s.ps (s.busRead .data ea)).value with
            ps := (f s.ps (s.busRead .data ea)).ps } := proceed_next

theorem modifyA_next {f : Byte → Byte → Computed} {s t : State} :
    modifyA f s = .next t ↔ t = { s.advance 1 with a := (f s.ps s.a).value, ps := (f s.ps s.a).ps } := by
  simp [modifyA, eq_comm]

theorem changeFlag_next {f : Flag} {b : Bool} {s t : State} :
    changeFlag f b s = .next t ↔ t = { s.advance 1 with ps := putFlag s.ps f b } := by
  simp [changeFlag, eq_comm]

theorem branchWhen_next {taken : Bool} {n : Nat} {rr : Byte} {s t : State} :
    branchWhen taken n rr s = .next t ↔
      t = { s with pc := if taken then branchTarget s.pc n rr else s.pc + BitVec.ofNat 16 n } := by
  simp [branchWhen, eq_comm]

theorem callSubroutine_next {n : Nat} {target : State → Except Refusal Word} {s t : State} :
    callSubroutine n target s = .next t ↔ ∃ pc,
      target (((s.advance n).push (highByte (s.pc + BitVec.ofNat 16 n - 1#16))).push
        (lowByte (s.pc + BitVec.ofNat 16 n - 1#16))) = .ok pc ∧
      t = { ((s.advance n).push (highByte (s.pc + BitVec.ofNat 16 n - 1#16))).push
            (lowByte (s.pc + BitVec.ofNat 16 n - 1#16)) with pc := pc } := proceed_next

theorem whenPresent_next {p : Bool} {m : String} {r : Result} {t : State} :
    whenPresent p m r = .next t ↔ p = true ∧ r = .next t := by
  cases p <;> simp [whenPresent]

theorem multiply_next {zz : Byte} {s t : State} :
    multiply zz s = .next t ↔
      t = { (s.advance 2).push (highByte (BitVec.ofNat 16 (s.a.toNat * (s.busRead .data (zeroPage (zz + s.x))).toNat))) with
            a := lowByte (BitVec.ofNat 16 (s.a.toNat * (s.busRead .data (zeroPage (zz + s.x))).toNat)) } := by
  simp [multiply, eq_comm]

/-- DIV always decrements S and stores one byte, whatever the quotient is (spec 42_arithmetic.md R109). -/
theorem divide_next {zz : Byte} {s t : State} (h : divide zz s = .next t) :
    ∃ v q, t = { (s.advance 2).push v with a := q } := by
  obtain ⟨e, -, ht⟩ := proceed_next.mp h
  dsimp only at ht
  split at ht
  · exact ⟨_, _, ht⟩
  · exact ⟨_, _, ht⟩

end Sys2Proof.Machine
end

