-- ==== Sys2Proof/Tests/Slice0.lean ====
section
/-! SUPPORT. Tests of the model. Expected values come from the spec: the instruction-code map (30_encoding.md R52), the worked examples
and vectors of 95_test_vectors.md, and hand calculation from the rules named beside a test. The last part gives, for each statement
with hypotheses, concrete states and operands that meet them. -/

namespace Sys2Proof.Tests

open Sys2Proof.Machine Sys2Proof.Claims

/-! ### Helpers -/

/-- A state at 0xC000 in RUN with these registers, these bytes in memory and zero elsewhere. -/
def start (ps a x y sp : Byte) (cells : List Host.Cell) : State :=
  { State.reset with ps := ps, a := a, x := x, y := y, sp := sp, mem := cells.foldl (fun m c => m.write c.1 c.2) [] }

/-- The same with the instruction bytes stored at PC. -/
def loaded (s : State) (bytes : List Byte) : State := { s with mem := placeBytes s.mem s.pc bytes }

/-- Whether a result is a next state with the property. -/
def gives (r : Result) (p : State → Bool) : Bool :=
  match r with
  | .next t => p t
  | _ => false

/-- Whether a result is this refusal. -/
def refuses (r : Result) (q : Refusal) : Bool :=
  match r with
  | .refused q' => decide (q' = q)
  | _ => false

/-- One step over these instruction bytes gives a next state with the property. -/
def after (s : State) (bytes : List Byte) (p : State → Bool) : Bool := gives (step (loaded s bytes)) p

/-- Each list of bytes decodes to the instruction, with nothing left over, and the instruction encodes to the bytes. -/
def bothWays (l : List (List Byte × Instr)) : Bool :=
  l.all fun c => encode c.2 == c.1 && match decode c.1 with
    | .ok (i, rest) => decide (i = c.2) && rest.isEmpty
    | .error _ => false

/-! ### Well-formedness: an ill-formed term for each check -/

theorem test_wf_jsrSp_refused : (Instr.jsrSp 0xFEC0).wellFormed = false := by decide
theorem test_wf_jsrSp_allowed : (Instr.jsrSp 0xFFC0).wellFormed = true := by decide
theorem test_wf_jmpInd_refused : (Instr.jmpInd 0x12FF).wellFormed = false := by decide
theorem test_wf_jmpInd_allowed : (Instr.jmpInd 0x12FE).wellFormed = true := by decide

/-! ### Decoding: every defined opcode of the map (R52), with operand bytes 12 and 34 -/

theorem test_opcodes_0x : bothWays
    [([0x00], .brk), ([0x01, 0x12], .oraIndX 0x12), ([0x02, 0x12], .jsrZpInd 0x12), ([0x03, 0x12], .bbsA 0 0x12),
      ([0x05, 0x12], .oraZp 0x12), ([0x06, 0x12], .aslZp 0x12), ([0x07, 0x12, 0x34], .bbsZp 0 0x12 0x34), ([0x08], .php),
      ([0x09, 0x12], .oraImm 0x12), ([0x0A], .aslA), ([0x0B], .sebA 0), ([0x0D, 0x12, 0x34], .oraAbs 0x3412),
      ([0x0E, 0x12, 0x34], .aslAbs 0x3412), ([0x0F, 0x12], .sebZp 0 0x12)] = true := by decide
theorem test_opcodes_1x : bothWays
    [([0x10, 0x12], .bpl 0x12), ([0x11, 0x12], .oraIndY 0x12), ([0x12], .clt), ([0x13, 0x12], .bbcA 0 0x12),
      ([0x15, 0x12], .oraZpX 0x12), ([0x16, 0x12], .aslZpX 0x12), ([0x17, 0x12, 0x34], .bbcZp 0 0x12 0x34), ([0x18], .clc),
      ([0x19, 0x12, 0x34], .oraAbsY 0x3412), ([0x1A], .decA), ([0x1B], .clbA 0), ([0x1D, 0x12, 0x34], .oraAbsX 0x3412),
      ([0x1E, 0x12, 0x34], .aslAbsX 0x3412), ([0x1F, 0x12], .clbZp 0 0x12)] = true := by decide
theorem test_opcodes_2x : bothWays
    [([0x20, 0x12, 0x34], .jsrAbs 0x3412), ([0x21, 0x12], .andIndX 0x12), ([0x22, 0x12], .jsrSp 0xFF12), ([0x23, 0x12], .bbsA 1 0x12),
      ([0x24, 0x12], .bitZp 0x12), ([0x25, 0x12], .andZp 0x12), ([0x26, 0x12], .rolZp 0x12), ([0x27, 0x12, 0x34], .bbsZp 1 0x12 0x34),
      ([0x28], .plp), ([0x29, 0x12], .andImm 0x12), ([0x2A], .rolA), ([0x2B], .sebA 1), ([0x2C, 0x12, 0x34], .bitAbs 0x3412),
      ([0x2D, 0x12, 0x34], .andAbs 0x3412), ([0x2E, 0x12, 0x34], .rolAbs 0x3412), ([0x2F, 0x12], .sebZp 1 0x12)] = true := by decide
theorem test_opcodes_3x : bothWays
    [([0x30, 0x12], .bmi 0x12), ([0x31, 0x12], .andIndY 0x12), ([0x32], .set), ([0x33, 0x12], .bbcA 1 0x12),
      ([0x35, 0x12], .andZpX 0x12), ([0x36, 0x12], .rolZpX 0x12), ([0x37, 0x12, 0x34], .bbcZp 1 0x12 0x34), ([0x38], .sec),
      ([0x39, 0x12, 0x34], .andAbsY 0x3412), ([0x3A], .incA), ([0x3B], .clbA 1), ([0x3C, 0x12, 0x34], .ldm 0x12 0x34),
      ([0x3D, 0x12, 0x34], .andAbsX 0x3412), ([0x3E, 0x12, 0x34], .rolAbsX 0x3412), ([0x3F, 0x12], .clbZp 1 0x12)] = true := by decide
theorem test_opcodes_4x : bothWays
    [([0x40], .rti), ([0x41, 0x12], .eorIndX 0x12), ([0x42], .stp), ([0x43, 0x12], .bbsA 2 0x12), ([0x44, 0x12], .comZp 0x12),
      ([0x45, 0x12], .eorZp 0x12), ([0x46, 0x12], .lsrZp 0x12), ([0x47, 0x12, 0x34], .bbsZp 2 0x12 0x34), ([0x48], .pha),
      ([0x49, 0x12], .eorImm 0x12), ([0x4A], .lsrA), ([0x4B], .sebA 2), ([0x4C, 0x12, 0x34], .jmpAbs 0x3412),
      ([0x4D, 0x12, 0x34], .eorAbs 0x3412), ([0x4E, 0x12, 0x34], .lsrAbs 0x3412), ([0x4F, 0x12], .sebZp 2 0x12)] = true := by decide
theorem test_opcodes_5x : bothWays
    [([0x50, 0x12], .bvc 0x12), ([0x51, 0x12], .eorIndY 0x12), ([0x53, 0x12], .bbcA 2 0x12), ([0x55, 0x12], .eorZpX 0x12),
      ([0x56, 0x12], .lsrZpX 0x12), ([0x57, 0x12, 0x34], .bbcZp 2 0x12 0x34), ([0x58], .cli), ([0x59, 0x12, 0x34], .eorAbsY 0x3412),
      ([0x5B], .clbA 2), ([0x5D, 0x12, 0x34], .eorAbsX 0x3412), ([0x5E, 0x12, 0x34], .lsrAbsX 0x3412),
      ([0x5F, 0x12], .clbZp 2 0x12)] = true := by decide
theorem test_opcodes_6x : bothWays
    [([0x60], .rts), ([0x61, 0x12], .adcIndX 0x12), ([0x62, 0x12], .mulZpX 0x12), ([0x63, 0x12], .bbsA 3 0x12),
      ([0x64, 0x12], .tstZp 0x12), ([0x65, 0x12], .adcZp 0x12), ([0x66, 0x12], .rorZp 0x12), ([0x67, 0x12, 0x34], .bbsZp 3 0x12 0x34),
      ([0x68], .pla), ([0x69, 0x12], .adcImm 0x12), ([0x6A], .rorA), ([0x6B], .sebA 3), ([0x6C, 0x12, 0x34], .jmpInd 0x3412),
      ([0x6D, 0x12, 0x34], .adcAbs 0x3412), ([0x6E, 0x12, 0x34], .rorAbs 0x3412), ([0x6F, 0x12], .sebZp 3 0x12)] = true := by decide
theorem test_opcodes_7x : bothWays
    [([0x70, 0x12], .bvs 0x12), ([0x71, 0x12], .adcIndY 0x12), ([0x73, 0x12], .bbcA 3 0x12), ([0x75, 0x12], .adcZpX 0x12),
      ([0x76, 0x12], .rorZpX 0x12), ([0x77, 0x12, 0x34], .bbcZp 3 0x12 0x34), ([0x78], .sei), ([0x79, 0x12, 0x34], .adcAbsY 0x3412),
      ([0x7B], .clbA 3), ([0x7D, 0x12, 0x34], .adcAbsX 0x3412), ([0x7E, 0x12, 0x34], .rorAbsX 0x3412),
      ([0x7F, 0x12], .clbZp 3 0x12)] = true := by decide
theorem test_opcodes_8x : bothWays
    [([0x80, 0x12], .bra 0x12), ([0x81, 0x12], .staIndX 0x12), ([0x82, 0x12], .rrfZp 0x12), ([0x83, 0x12], .bbsA 4 0x12),
      ([0x84, 0x12], .styZp 0x12), ([0x85, 0x12], .staZp 0x12), ([0x86, 0x12], .stxZp 0x12), ([0x87, 0x12, 0x34], .bbsZp 4 0x12 0x34),
      ([0x88], .dey), ([0x8A], .txa), ([0x8B], .sebA 4), ([0x8C, 0x12, 0x34], .styAbs 0x3412), ([0x8D, 0x12, 0x34], .staAbs 0x3412),
      ([0x8E, 0x12, 0x34], .stxAbs 0x3412), ([0x8F, 0x12], .sebZp 4 0x12)] = true := by decide
theorem test_opcodes_9x : bothWays
    [([0x90, 0x12], .bcc 0x12), ([0x91, 0x12], .staIndY 0x12), ([0x93, 0x12], .bbcA 4 0x12), ([0x94, 0x12], .styZpX 0x12),
      ([0x95, 0x12], .staZpX 0x12), ([0x96, 0x12], .stxZpY 0x12), ([0x97, 0x12, 0x34], .bbcZp 4 0x12 0x34), ([0x98], .tya),
      ([0x99, 0x12, 0x34], .staAbsY 0x3412), ([0x9A], .txs), ([0x9B], .clbA 4), ([0x9D, 0x12, 0x34], .staAbsX 0x3412),
      ([0x9F, 0x12], .clbZp 4 0x12)] = true := by decide
theorem test_opcodes_ax : bothWays
    [([0xA0, 0x12], .ldyImm 0x12), ([0xA1, 0x12], .ldaIndX 0x12), ([0xA2, 0x12], .ldxImm 0x12), ([0xA3, 0x12], .bbsA 5 0x12),
      ([0xA4, 0x12], .ldyZp 0x12), ([0xA5, 0x12], .ldaZp 0x12), ([0xA6, 0x12], .ldxZp 0x12), ([0xA7, 0x12, 0x34], .bbsZp 5 0x12 0x34),
      ([0xA8], .tay), ([0xA9, 0x12], .ldaImm 0x12), ([0xAA], .tax), ([0xAB], .sebA 5), ([0xAC, 0x12, 0x34], .ldyAbs 0x3412),
      ([0xAD, 0x12, 0x34], .ldaAbs 0x3412), ([0xAE, 0x12, 0x34], .ldxAbs 0x3412), ([0xAF, 0x12], .sebZp 5 0x12)] = true := by decide
theorem test_opcodes_bx : bothWays
    [([0xB0, 0x12], .bcs 0x12), ([0xB1, 0x12], .ldaIndY 0x12), ([0xB2, 0x12], .jmpZpInd 0x12), ([0xB3, 0x12], .bbcA 5 0x12),
      ([0xB4, 0x12], .ldyZpX 0x12), ([0xB5, 0x12], .ldaZpX 0x12), ([0xB6, 0x12], .ldxZpY 0x12), ([0xB7, 0x12, 0x34], .bbcZp 5 0x12 0x34),
      ([0xB8], .clv), ([0xB9, 0x12, 0x34], .ldaAbsY 0x3412), ([0xBA], .tsx), ([0xBB], .clbA 5), ([0xBC, 0x12, 0x34], .ldyAbsX 0x3412),
      ([0xBD, 0x12, 0x34], .ldaAbsX 0x3412), ([0xBE, 0x12, 0x34], .ldxAbsY 0x3412), ([0xBF, 0x12], .clbZp 5 0x12)] = true := by decide
theorem test_opcodes_cx : bothWays
    [([0xC0, 0x12], .cpyImm 0x12), ([0xC1, 0x12], .cmpIndX 0x12), ([0xC2], .wit), ([0xC3, 0x12], .bbsA 6 0x12),
      ([0xC4, 0x12], .cpyZp 0x12), ([0xC5, 0x12], .cmpZp 0x12), ([0xC6, 0x12], .decZp 0x12), ([0xC7, 0x12, 0x34], .bbsZp 6 0x12 0x34),
      ([0xC8], .iny), ([0xC9, 0x12], .cmpImm 0x12), ([0xCA], .dex), ([0xCB], .sebA 6), ([0xCC, 0x12, 0x34], .cpyAbs 0x3412),
      ([0xCD, 0x12, 0x34], .cmpAbs 0x3412), ([0xCE, 0x12, 0x34], .decAbs 0x3412), ([0xCF, 0x12], .sebZp 6 0x12)] = true := by decide
theorem test_opcodes_dx : bothWays
    [([0xD0, 0x12], .bne 0x12), ([0xD1, 0x12], .cmpIndY 0x12), ([0xD3, 0x12], .bbcA 6 0x12), ([0xD5, 0x12], .cmpZpX 0x12),
      ([0xD6, 0x12], .decZpX 0x12), ([0xD7, 0x12, 0x34], .bbcZp 6 0x12 0x34), ([0xD8], .cld), ([0xD9, 0x12, 0x34], .cmpAbsY 0x3412),
      ([0xDB], .clbA 6), ([0xDD, 0x12, 0x34], .cmpAbsX 0x3412), ([0xDE, 0x12, 0x34], .decAbsX 0x3412),
      ([0xDF, 0x12], .clbZp 6 0x12)] = true := by decide
theorem test_opcodes_ex : bothWays
    [([0xE0, 0x12], .cpxImm 0x12), ([0xE1, 0x12], .sbcIndX 0x12), ([0xE2, 0x12], .divZpX 0x12), ([0xE3, 0x12], .bbsA 7 0x12),
      ([0xE4, 0x12], .cpxZp 0x12), ([0xE5, 0x12], .sbcZp 0x12), ([0xE6, 0x12], .incZp 0x12), ([0xE7, 0x12, 0x34], .bbsZp 7 0x12 0x34),
      ([0xE8], .inx), ([0xE9, 0x12], .sbcImm 0x12), ([0xEA], .nop), ([0xEB], .sebA 7), ([0xEC, 0x12, 0x34], .cpxAbs 0x3412),
      ([0xED, 0x12, 0x34], .sbcAbs 0x3412), ([0xEE, 0x12, 0x34], .incAbs 0x3412), ([0xEF, 0x12], .sebZp 7 0x12)] = true := by decide
theorem test_opcodes_fx : bothWays
    [([0xF0, 0x12], .beq 0x12), ([0xF1, 0x12], .sbcIndY 0x12), ([0xF3, 0x12], .bbcA 7 0x12), ([0xF5, 0x12], .sbcZpX 0x12),
      ([0xF6, 0x12], .incZpX 0x12), ([0xF7, 0x12, 0x34], .bbcZp 7 0x12 0x34), ([0xF8], .sed), ([0xF9, 0x12, 0x34], .sbcAbsY 0x3412),
      ([0xFB], .clbA 7), ([0xFD, 0x12, 0x34], .sbcAbsX 0x3412), ([0xFE, 0x12, 0x34], .incAbsX 0x3412),
      ([0xFF, 0x12], .clbZp 7 0x12)] = true := by decide
/-! One word of each family, bit by bit from its page (41 to 47) and 95_test_vectors.md section 1. -/

theorem test_bits_transfer : bothWays [([0b10110110, 0b01100010], .ldxZpY 0x62)] = true := by decide
theorem test_bits_arithmetic : bothWays [([0b01111101, 0b00010010, 0b10101101], .adcAbsX 0xAD12)] = true := by decide
theorem test_bits_logic : bothWays [([0b00101100, 0b00110100, 0b00010010], .bitAbs 0x1234)] = true := by decide
theorem test_bits_shift : bothWays [([0b00101010], .rolA), ([0b10000010, 0b00100101], .rrfZp 0x25)] = true := by decide
theorem test_bits_bit : bothWays [([0b10111111, 0b01000100], .clbZp 5 0x44), ([0b01101011], .sebA 3)] = true := by decide
theorem test_bits_jump : bothWays [([0b01101100, 0b00000000, 0b00010100], .jmpInd 0x1400)] = true := by decide
theorem test_bits_branch : bothWays [([0b10110111, 0b00000100, 0b11110001], .bbcZp 5 0x04 0xF1)] = true := by decide
theorem test_bits_special : bothWays [([0b00000000], .brk), ([0b01000010], .stp), ([0b11000010], .wit)] = true := by decide

/-- R54: the 25 opcodes without an instruction are refused by name; the tests above decode the other 231. -/
theorem test_undefined_opcodes : undefinedOpcodes.all (fun op =>
    match decode [op, 0x12, 0x34] with
    | .error e => decide (e = .undefinedOpcode op)
    | .ok _ => false) = true := by decide

/-- 30_encoding.md R50: bytes missing after the opcode are refused. -/
theorem test_decode_truncated : (match decode [0x7D#8, 0x12#8] with | .error _ => true | .ok _ => false) = true := by decide

/-- The numbering of opcode_table.json: first byte in bits 7 to 0, next byte above it. -/
theorem test_table_word : decodeTableWord 24 0xAD127D = some (.adcAbsX 0xAD12) := by decide
theorem test_table_word_short : decodeTableWord 8 0x7D = some (.adcAbsX 0x0000) := by decide
theorem test_fetch_word : gives (step (State.reset.withFetchWord 16 0x55A9)) (fun t => t.a == 0x55) = true := by decide

/-! ### Data transfer (95_test_vectors.md 2.1) -/

theorem test_lda_imm : after (start 0x80 0x55 0 0 0xFF []) [0xA9, 0x00]
    (fun t => t.a == 0x00 && t.pc == 0xC002 && t.ps == 0x02 && t.cycles == 2) = true := by decide
theorem test_lda_zpX_wrap : after (start 0x00 0 0x20 0 0xFF [(0x0010, 0x7E), (0x0110, 0x99)]) [0xB5, 0xF0]
    (fun t => t.a == 0x7E && t.pc == 0xC002 && t.ps == 0x00 && t.cycles == 4) = true := by decide
theorem test_lda_absY : after (start 0x00 0 0 0x20 0xFF [(0x1310, 0x80)]) [0xB9, 0xF0, 0x12]
    (fun t => t.a == 0x80 && t.pc == 0xC003 && t.ps == 0x80 && t.cycles == 5) = true := by decide
theorem test_lda_absX_wrap : after (start 0x00 0 0x20 0 0xFF [(0x0010, 0x42)]) [0xBD, 0xF0, 0xFF]
    (fun t => t.a == 0x42 && t.pc == 0xC003 && t.ps == 0x00 && t.cycles == 5) = true := by decide
theorem test_lda_indX : after (start 0x00 0 0x04 0 0xFF [(0x0025, 0x30), (0x3000, 0x5A)]) [0xA1, 0x20]
    (fun t => t.a == 0x5A && t.pc == 0xC002 && t.ps == 0x00 && t.cycles == 6) = true := by decide
theorem test_lda_indY : after (start 0x00 0 0 0x10 0xFF [(0x0020, 0xF0), (0x0021, 0x30), (0x3100, 0xA5)]) [0xB1, 0x20]
    (fun t => t.a == 0xA5 && t.pc == 0xC002 && t.ps == 0x80 && t.cycles == 6) = true := by decide
theorem test_lda_imm_T : after (start 0x20 0xAA 0x40 0 0xFF []) [0xA9, 0x05]
    (fun t => t.a == 0xAA && t.mem.read 0x40 == 0x05 && t.pc == 0xC002 && t.ps == 0x20 && t.cycles == 4) = true := by decide
theorem test_lda_zpX_T : after (start 0x20 0xAA 0x10 0 0xFF [(0x0010, 0x77)]) [0xB5, 0x40]
    (fun t => t.a == 0xAA && t.mem.read 0x10 == 0x00 && t.ps == 0x22 && t.cycles == 6) = true := by decide
theorem test_ldm : after (start 0x02 0 0 0 0xFF []) [0x3C, 0xA5, 0x30]
    (fun t => t.mem.read 0x30 == 0xA5 && t.pc == 0xC003 && t.ps == 0x02 && t.cycles == 4) = true := by decide
theorem test_ldx_zpY : after (start 0x00 0 0 0x03 0xFF [(0x0065, 0x80)]) [0xB6, 0x62]
    (fun t => t.x == 0x80 && t.pc == 0xC002 && t.ps == 0x80 && t.cycles == 4) = true := by decide
theorem test_ldy_absX : after (start 0x80 0 0x01 0 0xFF [(0x1235, 0x09)]) [0xBC, 0x34, 0x12]
    (fun t => t.y == 0x09 && t.pc == 0xC003 && t.ps == 0x00 && t.cycles == 5) = true := by decide
theorem test_sta_indY : after (start 0x00 0x77 0 0x01 0xFF [(0x0030, 0xFF), (0x0031, 0x02)]) [0x91, 0x30]
    (fun t => t.mem.read 0x300 == 0x77 && t.ps == 0x00 && t.pc == 0xC002 && t.cycles == 7) = true := by decide
theorem test_stx_abs : after (start 0x02 0 0x5B 0 0xFF []) [0x8E, 0x34, 0x12]
    (fun t => t.mem.read 0x1234 == 0x5B && t.ps == 0x02 && t.pc == 0xC003 && t.cycles == 5) = true := by decide
theorem test_sty_zpX_wrap : after (start 0x00 0 0x11 0x99 0xFF []) [0x94, 0xF0]
    (fun t => t.mem.read 0x01 == 0x99 && t.ps == 0x00 && t.cycles == 5) = true := by decide
theorem test_txs : after (start 0x80 0 0 0 0xFF []) [0x9A]
    (fun t => t.sp == 0x00 && t.pc == 0xC001 && t.ps == 0x80 && t.cycles == 2) = true := by decide
theorem test_tsx : after (start 0x80 0 0x55 0 0x00 []) [0xBA] (fun t => t.x == 0x00 && t.ps == 0x02 && t.cycles == 2) = true := by decide
theorem test_tax : after (start 0x00 0x81 0 0 0xFF []) [0xAA] (fun t => t.x == 0x81 && t.y == 0x00 && t.ps == 0x80) = true := by decide
theorem test_tay : after (start 0x00 0x81 0 0 0xFF []) [0xA8] (fun t => t.y == 0x81 && t.x == 0x00 && t.ps == 0x80) = true := by decide
theorem test_txa : after (start 0x02 0x00 0x7F 0x11 0xFF []) [0x8A] (fun t => t.a == 0x7F && t.ps == 0x00) = true := by decide
theorem test_tya : after (start 0x02 0x00 0x11 0x7F 0xFF []) [0x98] (fun t => t.a == 0x7F && t.ps == 0x00) = true := by decide
theorem test_pha_wrap : after (start 0x00 0x9C 0 0 0x00 []) [0x48]
    (fun t => t.mem.read 0x100 == 0x9C && t.sp == 0xFF && t.cycles == 3) = true := by decide
theorem test_pla_wrap : after (start 0x00 0 0 0 0xFF [(0x0100, 0x80)]) [0x68]
    (fun t => t.sp == 0x00 && t.a == 0x80 && t.ps == 0x80 && t.cycles == 4) = true := by decide
theorem test_php : after (start 0xFF 0 0 0 0x80 []) [0x08]
    (fun t => t.mem.read 0x180 == 0xFF && t.sp == 0x7F && t.ps == 0xFF && t.cycles == 3) = true := by decide
theorem test_plp : after (start 0x04 0 0 0 0xFE [(0x01FF, 0x6B)]) [0x28]
    (fun t => t.sp == 0xFF && t.ps == 0x6B && t.pc == 0xC001 && t.cycles == 4 && t.hazard == .afterPlp) = true := by decide

/-! ### Arithmetic (95_test_vectors.md 2.2) -/

theorem test_adc_overflow : after (start 0x00 0x80 0 0 0xFF []) [0x69, 0x80]
    (fun t => t.a == 0x00 && t.ps == 0x43 && t.pc == 0xC002 && t.cycles == 2) = true := by decide
theorem test_adc_carry_in : after (start 0x01 0x00 0 0 0xFF []) [0x69, 0x7F] (fun t => t.a == 0x80 && t.ps == 0xC0) = true := by decide
theorem test_adc_zp_T : after (start 0x20 0x11 0x40 0 0xFF [(0x0010, 0x30), (0x0040, 0xD0)]) [0x65, 0x10]
    (fun t => t.a == 0x11 && t.mem.read 0x40 == 0x00 && t.ps == 0x23 && t.cycles == 6) = true := by decide
theorem test_adc_zp_decimal : after (start 0x08 0x25 0 0 0xFF [(0x0010, 0x38)]) [0x65, 0x10]
    (fun t => t.a == 0x63 && t.cycles == 3 && t.hazard == .afterDecimal) = true := by decide
theorem test_adc_decimal_carries (k : Nat) : flag (adcComputed k 0x08 0x25 0x38).ps .c = false ∧
    flag (adcComputed k 0x08 0x99 0x01).ps .c = true ∧ flag (adcComputed k 0x08 0x99 0x01).ps .d = true := by
  refine ⟨?_, ?_, ?_⟩ <;> simp only [adcComputed, decimalComputed, show flag 0x08 .d = true from rfl, if_true, flag_putNVZC] <;> rfl
/-- U4: an operand that is not packed decimal; the result is free, the instruction completes. -/
theorem test_adc_not_bcd : after (start 0x08 0x25 0x01 0 0xFF [(0x1235, 0x0A)]) [0x7D, 0x34, 0x12]
    (fun t => t.pc == 0xC003 && t.x == 0x01 && t.cycles == 5) = true := by decide
theorem test_sbc_borrow : after (start 0x01 0x00 0 0 0xFF []) [0xE9, 0x01] (fun t => t.a == 0xFF && t.ps == 0x80) = true := by decide
theorem test_sbc_borrow_in : after (start 0x00 0x80 0 0 0xFF []) [0xE9, 0x01] (fun t => t.a == 0x7E && t.ps == 0x41) = true := by decide
theorem test_sbc_zp_decimal : after (start 0x09 0x42 0 0 0xFF [(0x0010, 0x19)]) [0xE5, 0x10] (fun t => t.a == 0x23) = true := by decide
theorem test_sbc_abs_decimal_borrow : after (start 0x09 0x00 0 0 0xFF [(0x1234, 0x01)]) [0xED, 0x34, 0x12]
    (fun t => t.a == 0x99) = true := by decide
theorem test_sbc_decimal_carries (k : Nat) : flag (sbcComputed k 0x09 0x42 0x19).ps .c = true ∧
    flag (sbcComputed k 0x09 0x00 0x01).ps .c = false := by
  refine ⟨?_, ?_⟩ <;> simp only [sbcComputed, decimalComputed, show flag 0x09 .d = true from rfl, if_true, flag_putNVZC] <;> rfl
theorem test_inc_A : after (start 0x01 0xFF 0 0 0xFF []) [0x3A] (fun t => t.a == 0x00 && t.ps == 0x03) = true := by decide
theorem test_dec_A : after (start 0x01 0x00 0 0 0xFF []) [0x1A] (fun t => t.a == 0xFF && t.ps == 0x81) = true := by decide
theorem test_dec_zpX : after (start 0x00 0 0x02 0 0xFF []) [0xD6, 0x40]
    (fun t => t.mem.read 0x42 == 0xFF && t.ps == 0x80 && t.cycles == 6) = true := by decide
theorem test_inc_absX : after (start 0x00 0 0x01 0 0xFF [(0x1300, 0x7F)]) [0xFE, 0xFF, 0x12]
    (fun t => t.mem.read 0x1300 == 0x80 && t.ps == 0x80 && t.cycles == 7) = true := by decide
theorem test_dex : after (start 0x02 0 0 0 0xFF []) [0xCA] (fun t => t.x == 0xFF && t.ps == 0x80 && t.pc == 0xC001) = true := by decide
theorem test_iny : after (start 0x00 0 0 0x7F 0xFF []) [0xC8] (fun t => t.y == 0x80 && t.ps == 0x80) = true := by decide
theorem test_inx : after (start 0x00 0 0xFF 0x01 0xFF []) [0xE8] (fun t => t.x == 0x00 && t.y == 0x01 && t.ps == 0x02) = true := by decide
theorem test_dey : after (start 0x00 0 0x01 0x01 0xFF []) [0x88] (fun t => t.y == 0x00 && t.x == 0x01 && t.ps == 0x02) = true := by decide
theorem test_mul : after (start 0xC3 0xFF 0 0 0xFF [(0x0040, 0xFF)]) [0x62, 0x40]
    (fun t => t.mem.read 0x1FF == 0xFE && t.a == 0x01 && t.sp == 0xFE && t.ps == 0xC3 && t.cycles == 15) = true := by decide
theorem test_mul_zero : after (start 0x00 0x37 0 0 0xFF [(0x01FF, 0x55)]) [0x62, 0x40]
    (fun t => t.mem.read 0x1FF == 0x00 && t.a == 0x00 && t.sp == 0xFE && t.ps == 0x00 && t.cycles == 15) = true := by decide
theorem test_div : after (start 0x83 0x07 0 0 0xFF [(0x50, 0xE8), (0x51, 0x03)]) [0xE2, 0x50]
    (fun t => t.a == 0x8E && t.mem.read 0x1FF == 0xF9 && t.sp == 0xFE && t.ps == 0x83 && t.pc == 0xC002 && t.cycles == 16) = true := by decide
theorem test_div_largest : after (start 0x00 0xFF 0 0 0xFF [(0x50, 0xFF), (0x51, 0xFE)]) [0xE2, 0x50]
    (fun t => t.a == 0xFF && t.mem.read 0x1FF == 0x01 && t.sp == 0xFE) = true := by decide
/-- Divisor 0 (U6): A and the pushed byte are free, all else is as always. -/
theorem test_div_zero_runs : after (start 0x83 0x00 0 0 0xFF [(0x50, 0xE8), (0x51, 0x03)]) [0xE2, 0x50]
    (fun t => t.sp == 0xFE && t.pc == 0xC002 && t.ps == 0x83 && t.cycles == 16) = true := by decide

/-! ### Logic, test, compare (95_test_vectors.md 2.3) -/

theorem test_and_imm : after (start 0x80 0xF0 0 0 0xFF []) [0x29, 0x0F] (fun t => t.a == 0x00 && t.ps == 0x02) = true := by decide
theorem test_and_zp_T : after (start 0x20 0x00 0x20 0 0xFF [(0x0010, 0x0F), (0x0020, 0xFC)]) [0x25, 0x10]
    (fun t => t.a == 0x00 && t.mem.read 0x20 == 0x0C && t.ps == 0x20 && t.cycles == 6) = true := by decide
theorem test_ora_imm : after (start 0x00 0x00 0 0 0xFF []) [0x09, 0x00] (fun t => t.a == 0x00 && t.ps == 0x02) = true := by decide
theorem test_ora_zp : after (start 0x00 0x0F 0 0 0xFF [(0x10, 0xA0)]) [0x05, 0x10] (fun t => t.a == 0xAF && t.ps == 0x80) = true := by decide
theorem test_eor_abs : after (start 0x00 0x7F 0 0 0xFF [(0x1234, 0xFF)]) [0x4D, 0x34, 0x12]
    (fun t => t.a == 0x80 && t.ps == 0x80 && t.cycles == 4) = true := by decide
theorem test_com : after (start 0x80 0 0 0 0xFF [(0x0020, 0xFF)]) [0x44, 0x20]
    (fun t => t.mem.read 0x20 == 0x00 && t.ps == 0x02 && t.cycles == 5) = true := by decide
theorem test_bit_abs : after (start 0x83 0x40 0 0 0xFF [(0x1234, 0x40)]) [0x2C, 0x34, 0x12]
    (fun t => t.ps == 0x41 && t.a == 0x40 && t.mem.read 0x1234 == 0x40 && t.cycles == 4) = true := by decide
theorem test_tst : after (start 0x02 0 0 0 0xFF [(0x0033, 0x80)]) [0x64, 0x33] (fun t => t.ps == 0x80 && t.cycles == 3) = true := by decide
theorem test_cmp_equal : after (start 0x40 0x10 0 0 0xFF []) [0xC9, 0x10] (fun t => t.a == 0x10 && t.ps == 0x43) = true := by decide
theorem test_cmp_below : after (start 0x00 0x00 0 0 0xFF []) [0xC9, 0xFF] (fun t => t.ps == 0x00 && t.a == 0x00) = true := by decide
theorem test_cmp_zp_T : after (start 0x20 0x99 0x30 0 0xFF [(0x0010, 0x05), (0x0030, 0x04)]) [0xC5, 0x10]
    (fun t => t.ps == 0xA0 && t.a == 0x99 && t.mem.read 0x30 == 0x04 && t.cycles == 4) = true := by decide
theorem test_cpx_zp : after (start 0x00 0 0x80 0 0xFF [(0x0010, 0x7F)]) [0xE4, 0x10] (fun t => t.ps == 0x01 && t.cycles == 3) = true := by decide
theorem test_cpy_imm : after (start 0x01 0 0 0x80 0xFF []) [0xC0, 0x81] (fun t => t.ps == 0x80 && t.cycles == 2) = true := by decide

/-! ### Shift and rotate (95_test_vectors.md 2.4) -/

theorem test_asl_A : after (start 0x00 0x80 0 0 0xFF []) [0x0A] (fun t => t.a == 0x00 && t.ps == 0x03) = true := by decide
theorem test_lsr_A : after (start 0x80 0x01 0 0 0xFF []) [0x4A] (fun t => t.a == 0x00 && t.ps == 0x03) = true := by decide
theorem test_rol_A : after (start 0x01 0x55 0 0 0xFF []) [0x2A] (fun t => t.a == 0xAB && t.ps == 0x80) = true := by decide
theorem test_rol_zp : after (start 0x00 0 0 0 0xFF [(0x0010, 0x80)]) [0x26, 0x10]
    (fun t => t.mem.read 0x10 == 0x00 && t.ps == 0x03 && t.cycles == 5) = true := by decide
theorem test_ror_zpX : after (start 0x00 0 0x02 0 0xFF [(0x0012, 0x01)]) [0x76, 0x10]
    (fun t => t.mem.read 0x12 == 0x00 && t.ps == 0x03 && t.cycles == 6) = true := by decide
theorem test_ror_A : after (start 0x01 0x00 0 0 0xFF []) [0x6A] (fun t => t.a == 0x80 && t.ps == 0x80) = true := by decide
theorem test_rrf : after (start 0xC3 0 0 0 0xFF [(0x0025, 0xA7)]) [0x82, 0x25]
    (fun t => t.mem.read 0x25 == 0x7A && t.ps == 0xC3 && t.cycles == 8) = true := by decide

/-! ### Bits and flags (95_test_vectors.md 2.5) -/

theorem test_clb_zp : after (start 0x00 0 0 0 0xFF [(0x0044, 0xFF)]) [0xBF, 0x44]
    (fun t => t.mem.read 0x44 == 0xDF && t.ps == 0x00 && t.cycles == 5) = true := by decide
theorem test_clb_A : after (start 0x00 0x01 0 0 0xFF []) [0x1B] (fun t => t.a == 0x00 && t.ps == 0x00 && t.cycles == 2) = true := by decide
theorem test_seb_zp : after (start 0x02 0 0 0 0xFF []) [0xEF, 0x02]
    (fun t => t.mem.read 0x02 == 0x80 && t.ps == 0x02 && t.cycles == 5) = true := by decide
theorem test_seb_A : after (start 0x02 0x00 0 0 0xFF []) [0x6B] (fun t => t.a == 0x08 && t.ps == 0x02) = true := by decide
theorem test_clear_flags : ([(0x18, 0xFE), (0xD8, 0xF7), (0x58, 0xFB), (0x12, 0xDF), (0xB8, 0xBF)] : List (Byte × Byte)).all (fun c =>
    after (start 0xFF 0 0 0 0xFF []) [c.1] (fun t => t.ps == c.2 && t.pc == 0xC001 && t.cycles == 2)) = true := by decide
theorem test_set_flags : ([(0x38, 0x01), (0xF8, 0x08), (0x78, 0x04), (0x32, 0x20)] : List (Byte × Byte)).all (fun c =>
    after (start 0x00 0 0 0 0xFF []) [c.1] (fun t => t.ps == c.2 && t.pc == 0xC001 && t.cycles == 2)) = true := by decide

/-! ### Jumps, branches, returns (95_test_vectors.md 2.6) -/

theorem test_jmp_abs : after (start 0 0 0 0 0xFF []) [0x4C, 0x34, 0x12] (fun t => t.pc == 0x1234 && t.cycles == 3) = true := by decide
theorem test_jmp_ind : after (start 0 0 0 0 0xFF [(0x1400, 0xFF), (0x1401, 0x1E)]) [0x6C, 0x00, 0x14]
    (fun t => t.pc == 0x1EFF && t.cycles == 5) = true := by decide
theorem test_jmp_zpInd : after (start 0 0 0 0 0xFF [(0x0045, 0xFF), (0x0046, 0x1E)]) [0xB2, 0x45]
    (fun t => t.pc == 0x1EFF && t.cycles == 4) = true := by decide
theorem test_jmp_ind_refused : refuses (step (loaded (start 0 0 0 0 0xFF []) [0x6C, 0xFF, 0x12])) .jmpIndirectPageEnd = true := by decide
theorem test_jmp_zpInd_refused : refuses (step (loaded (start 0 0 0 0 0xFF []) [0xB2, 0xFF])) .zeroPagePointerPageEnd = true := by decide
theorem test_bra_self : after (start 0 0 0 0 0xFF []) [0x80, 0xFE] (fun t => t.pc == 0xC000 && t.cycles == 4) = true := by decide
theorem test_bra_back : after (start 0 0 0 0 0xFF []) [0x80, 0x80] (fun t => t.pc == 0xBF82) = true := by decide
theorem test_jsr_abs : after { start 0 0 0 0 0xFF [] with pc := 0xC100 } [0x20, 0x00, 0xC2]
    (fun t => t.mem.read 0x1FF == 0xC1 && t.mem.read 0x1FE == 0x02 && t.sp == 0xFD && t.pc == 0xC200 && t.cycles == 6) = true := by decide
theorem test_jsr_sp : after { start 0 0 0 0 0xFF [] with pc := 0xC100 } [0x22, 0xC0]
    (fun t => t.mem.read 0x1FF == 0xC1 && t.mem.read 0x1FE == 0x01 && t.sp == 0xFD && t.pc == 0xFFC0 && t.cycles == 5) = true := by decide
theorem test_jsr_zpInd : after { start 0 0 0 0 0xFF [(0x41, 0xD0)] with pc := 0xC1FF } [0x02, 0x40]
    (fun t => t.mem.read 0x1FF == 0xC2 && t.mem.read 0x1FE == 0x00 && t.sp == 0xFD && t.pc == 0xD000 && t.cycles == 7) = true := by decide
theorem test_rts : after (start 0 0 0 0 0xFD [(0x1FE, 0xFF), (0x1FF, 0xC1)]) [0x60]
    (fun t => t.sp == 0xFF && t.pc == 0xC200 && t.cycles == 6) = true := by decide
theorem test_rti : after (start 0x04 0 0 0 0xFC [(0x1FD, 0xA1), (0x1FE, 0x34), (0x1FF, 0xC0)]) [0x40]
    (fun t => t.sp == 0xFF && t.ps == 0xA1 && t.pc == 0xC034 && t.cycles == 6 && t.hazard == .none) = true := by decide
theorem test_bcc_taken : after (start 0x00 0 0 0 0xFF []) [0x90, 0xF2] (fun t => t.pc == 0xBFF4 && t.cycles == 4) = true := by decide
theorem test_bcc_not_taken : after (start 0x01 0 0 0 0xFF []) [0x90, 0xF2] (fun t => t.pc == 0xC002 && t.cycles == 2) = true := by decide
theorem test_beq_pc_wrap : after { start 0x02 0 0 0 0xFF [] with pc := 0xFFFE } [0xF0, 0x10]
    (fun t => t.pc == 0x0010 && t.cycles == 4) = true := by decide
/-- R146, R147, R149 to R152: the other flag branches, taken with just their flag. -/
theorem test_branches_on_flags :
    ([(0xB0, 0x01), (0x30, 0x80), (0x70, 0x40)] : List (Byte × Byte)).all (fun c =>
      after (start c.2 0 0 0 0xFF []) [c.1, 0x10] (fun t => t.pc == 0xC012) &&
      after (start (~~~c.2) 0 0 0 0xFF []) [c.1, 0x10] (fun t => t.pc == 0xC002)) = true := by decide
theorem test_branches_off_flags :
    ([(0xD0, 0x02), (0x10, 0x80), (0x50, 0x40)] : List (Byte × Byte)).all (fun c =>
      after (start c.2 0 0 0 0xFF []) [c.1, 0x10] (fun t => t.pc == 0xC002) &&
      after (start (~~~c.2) 0 0 0 0xFF []) [c.1, 0x10] (fun t => t.pc == 0xC012)) = true := by decide
theorem test_bbc_A_clear : after (start 0 0xDF 0 0 0xFF []) [0xB3, 0xF2] (fun t => t.pc == 0xBFF4 && t.cycles == 6) = true := by decide
theorem test_bbc_A_set : after (start 0 0x20 0 0 0xFF []) [0xB3, 0xF2] (fun t => t.pc == 0xC002 && t.cycles == 4) = true := by decide
theorem test_bbc_zp_clear : after (start 0 0 0 0 0xFF [(0x04, 0xDF)]) [0xB7, 0x04, 0xF1]
    (fun t => t.pc == 0xBFF4 && t.mem.read 0x04 == 0xDF && t.cycles == 7) = true := by decide
theorem test_bbs_zp_set : after (start 0 0 0 0 0xFF [(0x10, 0x01)]) [0x07, 0x10, 0x05]
    (fun t => t.pc == 0xC008 && t.cycles == 7) = true := by decide

/-! ### BRK, WIT, STP, NOP, undefined opcodes (95_test_vectors.md 2.7) -/

theorem test_brk : after { start 0xA5 0 0 0 0xFF [(0xFFF5, 0xE0)] with pc := 0xC0FF } [0x00]
    (fun t => t.mem.read 0x1FF == 0xC1 && t.mem.read 0x1FE == 0x01 && t.mem.read 0x1FD == 0xB5 && t.sp == 0xFC && t.ps == 0xB5 &&
      t.pc == 0xE000 && t.cycles == 7) = true := by decide
theorem test_nop : after (start 0xFF 0 0 0 0xFF []) [0xEA] (fun t => t.pc == 0xC001 && t.ps == 0xFF && t.cycles == 2) = true := by decide
theorem test_wit : after (start 0 0 0 0 0xFF []) [0xC2] (fun t => t.pc == 0xC001 && t.run == .wait && t.cycles == 2) = true := by decide
theorem test_stp : after (start 0 0 0 0 0xFF []) [0x42] (fun t => t.pc == 0xC001 && t.run == .stop && t.cycles == 2) = true := by decide
theorem test_stp_invalid : after { start 0 0 0 0 0xFF [] with cfg := { Config.reset with stpValid := false } } [0x42]
    (fun t => t.pc == 0xC001 && t.run == .run && t.cycles == 2) = true := by decide
theorem test_undefined_opcode : refuses (step (loaded (start 0 0 0 0 0xFF []) [0x89])) (.undefinedOpcode 0x89) = true := by decide
theorem test_absent_mul : refuses
    (step (loaded { start 0 0 0 0 0xFF [] with cfg := { Config.reset with hasMulDiv := false } } [0x62, 0x40]))
    (.absentInstruction "MUL") = true := by decide
theorem test_absent_wit : refuses
    (step (loaded { start 0 0 0 0 0xFF [] with cfg := { Config.reset with hasWit := false } } [0xC2]))
    (.absentInstruction "WIT") = true := by decide

/-! ### Interrupts (95_test_vectors.md section 3) -/

/-- Request bit 7 and enable bit 0 of the register at 0x3E, vector FFF8 (the layout I11 assumes). -/
def src : IrqSource where
  requestAddress := 0x003E
  requestBit := 7
  enableAddress := 0x003E
  enableBit := 0
  vector := 0xFFF8
  setByWrite := true
  wakesStop := false
  wakesWait := true

/-- Request bit 0 of 0x3C, enable bit 0 of 0x3D, vector FFFA; a program cannot set its request bit (R174). -/
def src1 : IrqSource where
  requestAddress := 0x003C
  requestBit := 0
  enableAddress := 0x003D
  enableBit := 0
  vector := 0xFFFA
  setByWrite := false
  wakesStop := true
  wakesWait := true

/-- A register of which a program writes bits 3 to 0 and the outside bits 7 to 4. -/
def halves : RegisterBehaviour := { RegisterBehaviour.plain with writeMask := 0x0F, outsideMask := 0xF0 }

/-- A register that selects the active edge of the source of number 0: a write to it may set that source's request bit. -/
def edgeSelect : RegisterBehaviour := { RegisterBehaviour.plain with mayRequest := [0] }

/-- A product with one port, every kind of region, and the given sources, the first of highest priority. -/
def board (sources : List IrqSource) : Config :=
  { Config.reset with
    irqSources := sources
    vecReset := .vector 0xFFFE
    ports := [{ outputValue := true, peripheralMask := 0x01 }]
    memoryMap := [⟨0x0030, 1, .port 0⟩, ⟨0x0031, 1, .direction 0⟩, ⟨0x0032, 2, .device⟩, ⟨0x0038, 1, .register halves⟩,
      ⟨0x0039, 1, .register edgeSelect⟩, ⟨0x003C, 3, .register .plain⟩,
      ⟨0x2000, 0x1000, .unmapped⟩, ⟨0xE000, 0x2000, .rom⟩] }

/-- The vectors FFF4 -> D000, FFF8 -> E000, FFFA -> E100, FFFE -> C000. -/
def vectors : List Host.Cell := [(0xFFF5, 0xD0), (0xFFF9, 0xE0), (0xFFFB, 0xE1), (0xFFFF, 0xC0)]

/-- The start state on the board, one port with latch 0F, direction F0, pins 55 and peripheral output 01. -/
def onBoard (sources : List IrqSource) (ps sp : Byte) (cells : List Host.Cell) : State :=
  { start ps 0x11 0 0 sp (vectors ++ cells) with
    cfg := board sources
    ports := [{ latch := 0x0F, direction := 0xF0, pins := 0x55, peripheral := 0x01 }] }

theorem test_I1_acceptance : gives (step { onBoard [src] 0x00 0xFF [(0x3E, 0x81)] with pc := 0xC002 })
    (fun t => t.mem.read 0x1FF == 0xC0 && t.mem.read 0x1FE == 0x02 && t.mem.read 0x1FD == 0x00 && t.sp == 0xFC && t.ps == 0x04 &&
      t.mem.read 0x3E == 0x01 && t.pc == 0xE000 && t.cycles == 7) = true := by decide
theorem test_I2_disabled : after { onBoard [src] 0x04 0xFF [(0x3E, 0x81)] with pc := 0xC002 } [0xEA]
    (fun t => t.pc == 0xC003 && t.mem.read 0x3E == 0x81 && t.sp == 0xFF) = true := by decide
theorem test_I3_not_enabled : after { onBoard [src] 0x00 0xFF [(0x3E, 0x80)] with pc := 0xC002 } [0xEA]
    (fun t => t.pc == 0xC003 && t.mem.read 0x3E == 0x80 && t.sp == 0xFF) = true := by decide
theorem test_I4_saved_B_and_T : gives (step { onBoard [src] 0x30 0xFF [(0x3E, 0x81)] with pc := 0xC002 })
    (fun t => t.mem.read 0x1FD == 0x20 && t.ps == 0x24) = true := by decide
theorem test_I5_priority : gives (step (onBoard [src1, src] 0x00 0xFF [(0x3C, 0x01), (0x3D, 0x01), (0x3E, 0x81)]))
    (fun t => t.pc == 0xE100 && t.mem.read 0x3C == 0x00 && t.mem.read 0x3E == 0x81 &&
      t.acceptable (fun _ => true) == none && { t with ps := 0x00 }.acceptable (fun _ => true) == some src) = true := by decide
theorem test_I6_brk_masked_source : after (onBoard [src] 0x04 0xFF [(0x3E, 0x81)]) [0x00]
    (fun t => t.mem.read 0x1FF == 0xC0 && t.mem.read 0x1FE == 0x02 && t.mem.read 0x1FD == 0x14 && t.pc == 0xE000 &&
      t.mem.read 0x3E == 0x81) = true := by decide
theorem test_I7_before_brk : after (onBoard [src] 0x00 0xFF [(0x3E, 0x81)]) [0x00]
    (fun t => t.mem.read 0x1FF == 0xC0 && t.mem.read 0x1FE == 0x00 && t.mem.read 0x1FD == 0x00 && t.pc == 0xE000) = true := by decide
/-- I8: the request arrives from outside while the state is WAIT. -/
theorem test_I8_wake : gives (step { onBoard [src] 0x00 0xFF [(0x3E, 0x01)] with pc := 0xC001, run := .wait, outside := [[.request 0]] })
    (fun t => t.mem.read 0x1FF == 0xC0 && t.mem.read 0x1FE == 0x01 && t.mem.read 0x1FD == 0x00 && t.run == .run && t.pc == 0xE000 &&
      t.mem.read 0x3E == 0x01 && t.outside == []) = true := by decide
theorem test_I8_stop_not_woken : gives (step { onBoard [src] 0x00 0xFF [(0x3E, 0x81)] with pc := 0xC001, run := .stop })
    (fun t => t.run == .stop && t.pc == 0xC001) = true := by decide
theorem test_I9_stays : gives (step { onBoard [src] 0x04 0xFF [(0x3E, 0x81)] with pc := 0xC001, run := .wait })
    (fun t => t.run == .wait && t.pc == 0xC001 && t.mem.read 0x3E == 0x81) = true := by decide
/-- WAKE_REQUIRES_ACCEPT = false (R3, D20): the same request ends WAIT without acceptance. -/
theorem test_I9_wakes_without_acceptance : gives (step { onBoard [src] 0x04 0xFF [(0x3E, 0x81)] with
      pc := 0xC001, run := .wait, cfg := { board [src] with wakeRequiresAccept := false } })
    (fun t => t.run == .run && t.pc == 0xC001 && t.sp == 0xFF) = true := by decide
theorem test_I10_rti : gives (exec .rti ({ onBoard [src] 0x00 0xFF [(0x3E, 0x81)] with pc := 0xC002 }.takeInterrupt src))
    (fun t => t.ps == 0x00 && t.pc == 0xC002 && t.sp == 0xFF && t.a == 0x11 && t.mem.read 0x3E == 0x01) = true := by decide
theorem test_I11_forced : after (onBoard [src] 0x00 0xFF [(0x3E, 0x80)]) [0x3C, 0x01, 0x3E]
    (fun t => t.mem.read 0x3E == 0x01 && t.forced == [src] && t.acceptable (fun _ => true) == some src) = true := by decide

/-! ### Hazards and the bus -/

/-- R193: an instruction other than NOP right after PLP is refused, NOP is not. -/
theorem test_after_plp_refused : refuses (step (loaded { start 0 0 0 0 0xFF [] with hazard := .afterPlp } [0xA9, 0x00]))
    .plpWithoutNop = true := by decide
theorem test_after_plp_nop : after { start 0 0 0 0 0xFF [] with hazard := .afterPlp } [0xEA]
    (fun t => t.hazard == .none && t.pc == 0xC001) = true := by decide
/-- R194 (program P3 without its NOP): CLD right after a decimal ADC is refused; SED is not named by the rule. -/
theorem test_after_decimal_cld : refuses (step (loaded { start 0x08 0 0 0 0xFF [] with hazard := .afterDecimal } [0xD8]))
    .flagChangeAfterDecimal = true := by decide
theorem test_after_decimal_sed : after { start 0x08 0 0 0 0xFF [] with hazard := .afterDecimal } [0xF8]
    (fun t => t.hazard == .none && t.ps == 0x08) = true := by decide
/-- R195: BBS 7,$3E right after CLB 7,$3E still sees the bit 1; the memory has 0. -/
theorem test_request_bit_lag : after (onBoard [src] 0x04 0xFF [(0x3E, 0x81)]) [0xFF, 0x3E]
    (fun t => t.mem.read 0x3E == 0x01 && t.lag == [(0x3E, 0x81)] &&
      gives (exec (.bbsZp 7 0x3E 0x10) t) (fun u => u.pc == t.pc + 3 + 0x10)) = true := by decide
/-- R195 where the write changes nothing: CLB 7,$3E on a bit that is 0, then a request from outside; BBS still sees 0. -/
theorem test_request_bit_lag_unchanged : after (onBoard [src] 0x04 0xFF [(0x3E, 0x01)]) [0xFF, 0x3E]
    (fun t => t.lag == [(0x3E, 0x01)] && (applyMove t (.request 0)).requested src &&
      gives (exec (.bbsZp 7 0x3E 0x10) (applyMove t (.request 0))) (fun u => u.pc == t.pc + 3)) = true := by decide
/-- R195: the instruction after that sees the bit as it is. -/
theorem test_request_bit_lag_ends : after { onBoard [src] 0x04 0xFF [(0x3E, 0x81)] with lag := [(0x3E, 0x01)] } [0xEA]
    (fun t => t.lag == [] && t.testedBit 0x3E 7) = true := by decide
/-- R37, R45: a register with read-only bits (7 to 4): the write of 5A over A3 stores the low half. -/
theorem test_register_write_mask : after (onBoard [] 0x04 0xFF [(0x38, 0xA3)]) [0x3C, 0x5A, 0x38]
    (fun t => t.mem.read 0x38 == 0xAA && t.busRead .data 0x38 == 0xAA) = true := by decide
/-- R208 (c): what the outside presents to the same register changes the high half. -/
theorem test_register_from_outside : (applyMove (onBoard [] 0x04 0xFF [(0x38, 0xA3)]) (.register 0x38 0x5A)).mem.read 0x38 = 0x53 := by decide
/-- R207: a write to the register of the active edge completes, and nothing but its byte and the one request bit can differ. -/
theorem test_edge_select : after (onBoard [src] 0x04 0xFF []) [0x3C, 0x01, 0x39] (fun t => t.pc == 0xC003 && t.sp == 0xFF) = true ∧
    ∀ v, ((onBoard [src] 0x04 0xFF []).busWrite 0x39 v).mem =
      if Config.unspecifiedBit 0 (.requestOnWrite 0x39 0) then putRequestBit ((onBoard [src] 0x04 0xFF []).mem.write 0x39 v) src true
      else (onBoard [src] 0x04 0xFF []).mem.write 0x39 v := by
  refine ⟨by decide, fun v => ?_⟩
  have hu : underMask 0xFF#8 0x00#8 v = v := by revert v; decide
  show requestsOnWrite _ 0 0x39 [0] (Memory.write _ _ (underMask 0xFF#8 0x00#8 v)) = _
  rw [hu]
  show (match some src, Config.unspecifiedBit 0 (.requestOnWrite 0x39 0) with
    | some q, true => _
    | _, _ => _) = _
  split <;> simp_all [onBoard]
/-- R174 with a source that a program cannot set: the write of 1 leaves the request bit 0, the rest of the byte is stored. -/
theorem test_request_not_set_by_program : after (onBoard [src1] 0x04 0xFF []) [0x3C, 0xFF, 0x3C]
    (fun t => t.mem.read 0x3C == 0xFE) = true := by decide
/-- R37, D11: a store to ROM has no effect. -/
theorem test_rom_write : after (onBoard [] 0x04 0xFF [(0xE005, 0x42)]) [0x8D, 0x05, 0xE0]
    (fun t => t.mem.read 0xE005 == 0x42 && t.pc == 0xC003) = true := by decide
/-- R40: latch 0F, direction F0, pins 55, bit 0 a peripheral's output: bits 7 to 4 read the latch, 3 to 0 the pins. -/
theorem test_port_read : after (onBoard [] 0x04 0xFF []) [0xA5, 0x30] (fun t => t.a == 0x05) = true := by decide
/-- R40 with bit 0 in output mode: it reads the peripheral's output; a write goes to the latch. -/
theorem test_port_write : after { onBoard [] 0x04 0xFF [] with
      ports := [{ latch := 0x00, direction := 0xFF, pins := 0x55, peripheral := 0x01 }] } [0x3C, 0x80, 0x30]
    (fun t => t.port 0 == { latch := 0x80, direction := 0xFF, pins := 0x55, peripheral := 0x01 } && t.busRead .data 0x30 == 0x81) = true := by decide
/-- R13: with the stack page selection bit 0 the stack is in page 0. -/
theorem test_stack_page_zero : after { start 0 0x9C 0 0 0x40 [] with cfg := { Config.reset with stackPage := .sps 0x3B 2 } } [0x48]
    (fun t => t.mem.read 0x40 == 0x9C && t.sp == 0x3F) = true := by decide
/-- R13: with the bit 1 it is in page 1, and a push that clears the bit takes the next one to page 0. -/
theorem test_stack_page_one : gives (exec .php { start 0x9C 0 0 0 0x40 [(0x3B, 0x04)] with cfg := { Config.reset with stackPage := .sps 0x3B 2 } })
    (fun t => t.mem.read 0x140 == 0x9C) = true := by decide
/-- R49 with ZP_PTR_WRAP = WrapInZeroPage and = CrossToPage1. -/
theorem test_pointer_wraps : after { start 0 0 0 0 0xFF [(0xFF, 0x34), (0x00, 0x12), (0x100, 0x56)] with
      cfg := { Config.reset with zeroPagePointerWrap := .wrapInZeroPage } } [0xB2, 0xFF] (fun t => t.pc == 0x1234) = true := by decide
theorem test_pointer_crosses : after { start 0 0 0 0 0xFF [(0xFF, 0x34), (0x00, 0x12), (0x100, 0x56)] with
      cfg := { Config.reset with zeroPagePointerWrap := .crossToPage1 } } [0xB2, 0xFF] (fun t => t.pc == 0x5634) = true := by decide
/-- R190, R191: a hardware reset from outside, out of STOP: RUN, I = 1, PC at the entry, ports in input mode. -/
theorem test_reset_leaves_stop :
    let s := { onBoard [] 0x00 0xFF [] with
      run := .stop, pc := 0xC123, outside := [[.reset]], cfg := { board [] with vecReset := .entry 0xC000 } }
    s.arrive.run = .run ∧ s.arrive.pc = 0xC000 ∧ flag s.arrive.ps .i = true ∧ (s.arrive.port 0).direction = 0x00 :=
  ⟨rfl, rfl, (flag_putFlag _ .i .i true).trans rfl, rfl⟩

/-! ### Witnesses: states and operands that meet the hypotheses of each statement, clause by clause, at the edges of their ranges -/

/-- The board in RAM at 0xC000 with both sources, I = 1. -/
def wb (ps sp : Byte) (cells : List Host.Cell) : State := onBoard [src1, src] ps sp cells

/-- The reset product with another choice for a zero-page pointer at its end (R49). -/
def pointerBoard (w : ZeroPagePointerWrap) : State :=
  { start 0 0x22 0x0F 0x10 0xFF [(0x00, 0x12), (0xFE, 0x56), (0xFF, 0x34), (0x100, 0x78)] with
    cfg := { Config.reset with zeroPagePointerWrap := w } }

theorem witness_HardwareResetState :
    (wb 0x04 0xFF []).Inv ∧ 0 < (wb 0x04 0xFF []).ports.length ∧ kindAt (wb 0 0 []).cfg 0xE000 = .rom ∧
    kindAt (wb 0 0 []).cfg 0xFFFF = .rom ∧ (wb 0x04 0xFF []).cfg.vecReset = .vector 0xFFFE ∧
    State.reset.Inv ∧ State.reset.cfg.vecReset = .entry 0xC000 := by
  unfold State.Inv State.Formed; decide

/-- The board with a stack page selection bit, bit 2 of 0x3B. -/
def paged (ps sp : Byte) (cells : List Host.Cell) : State :=
  { wb ps sp cells with cfg := { board [src1, src] with stackPage := .sps 0x3B 2 } }

/-- `PlainStack` as a computation. -/
def stackIsPlain (s : State) (k : Nat) : Bool :=
  ((List.range k).all fun j => decide (kindAt s.cfg (stackWord s j) = .ram) &&
    (s.cfg.irqSources.all fun q => decide (q.requestAddress ≠ stackWord s j)) &&
    (selectionBit s.cfg).all fun r => decide (r.1 ≠ stackWord s j)) &&
  (selectionBit s.cfg).all fun r => s.cfg.irqSources.all fun q => !(decide (q.requestAddress = r.1) && decide (q.requestBit = r.2))

theorem plainStack {s : State} {k : Nat} (h : stackIsPlain s k = true) : PlainStack s k := by
  simp only [stackIsPlain, Bool.and_eq_true, List.all_eq_true, List.mem_range, decide_eq_true_eq, Bool.not_eq_true',
    Bool.and_eq_false_iff, decide_eq_false_iff_not] at h
  exact ⟨fun j hj => ⟨(h.1 j hj).1.1, (h.1 j hj).1.2, (h.1 j hj).2⟩,
    fun r hr q hq e => (h.2 r hr q hq).elim (fun n => n e.1) fun n => n e.2⟩

/-- Page 1 fixed, and page 0 and page 1 by the selection bit, with S at its wrap and elsewhere. -/
theorem witness_PushThenPull :
    (wb 0 0x00 []).cfg.stackPage = .fixed01 ∧ (paged 0 0x00 []).cfg.stackPage = .sps 0x3B 2 ∧
    PlainStack (wb 0 0x00 []) 1 ∧ PlainStack (wb 0 0xFF []) 1 ∧
    PlainStack (paged 0 0x00 []) 1 ∧ (paged 0 0x00 []).stackAddress 0x00 = 0x0000 ∧
    PlainStack (paged 0 0xFF [(0x3B, 0x04)]) 1 ∧ (paged 0 0xFF [(0x3B, 0x04)]).stackAddress 0xFF = 0x01FF :=
  ⟨rfl, rfl, plainStack (by decide), plainStack (by decide), plainStack (by decide), rfl, plainStack (by decide), rfl⟩

/-- RAM at both ends of its ranges; a request bit a program cannot set and one it can; a register with read-only bits, one whose write
may set a request bit; ROM, nothing, a device. -/
theorem witness_BusWriteThenRead :
    kindAt (wb 0 0 []).cfg 0x0000 = .ram ∧ kindAt (wb 0 0 []).cfg 0xDFFF = .ram ∧
    kindAt (wb 0 0 []).cfg 0x0038 = .register halves ∧ bitOf halves.writeMask 3 = true ∧ bitOf halves.writeMask 4 = false ∧
    bitOf halves.readMask 7 = true ∧ kindAt (wb 0 0 []).cfg 0x003C = .register .plain ∧
    ClearOnly (wb 0 0 []).cfg 0x003C 0 ∧ ¬ ClearOnly (wb 0 0 []).cfg 0x003C 1 ∧ ¬ ClearOnly (wb 0 0 []).cfg 0x003E 7 ∧
    MayBeRequested (wb 0 0 []).cfg 0x0039 0x003C 0 ∧ sideAddresses (wb 0 0 []).cfg 0x0039 = [0x003C] ∧
    kindAt (wb 0 0 []).cfg 0xE000 = .rom ∧ kindAt (wb 0 0 []).cfg 0x2FFF = .unmapped ∧ kindAt (wb 0 0 []).cfg 0x0033 = .device := by
  refine ⟨by decide, by decide, by decide, by decide, by decide, by decide, by decide, ?_, ?_, ?_,
    ⟨edgeSelect, by decide, 0, by decide, src1, by decide, by decide, by decide⟩, by decide, by decide, by decide, by decide⟩ <;>
    (unfold ClearOnly; decide)

/-- A request bit in plain RAM. -/
theorem witness_BusWriteThenRead_request_in_ram : kindAt { Config.reset with irqSources := [src1] } 0x003C = .ram ∧
    ClearOnly { Config.reset with irqSources := [src1] } 0x003C 0 := by unfold ClearOnly; decide

theorem witness_PortWriteThenRead : 0 < (wb 0 0 []).ports.length ∧ kindAt (wb 0 0 []).cfg 0x0030 = .port 0 ∧
    kindAt (wb 0 0 []).cfg 0x0031 = .direction 0 := by decide

/-- Pointers in RAM of a product that has ROM and registers, below the page end and at it; a pointer in a register. -/
theorem witness_IndirectAddresses (w : ZeroPagePointerWrap) :
    (pointerBoard w).cfg.zeroPagePointerWrap = w ∧ 0xEF#8 + (pointerBoard w).x ≠ 0xFF#8 ∧ 0xF0#8 + (pointerBoard w).x = 0xFF#8 ∧
    Stored (wb 0 0 []) (zeroPage 0xFE) ∧ Stored (wb 0 0 []) (zeroPage 0x3D) ∧ Stored (wb 0 0 []) (zeroPage 0x38) ∧
    Stored (pointerBoard w) 0x00FF ∧ Stored (pointerBoard w) 0x0000 ∧ Stored (pointerBoard w) 0x0100 ∧
    ¬ Stored (wb 0 0 []) 0x0030 := by
  cases w <;> (unfold Stored; decide)

theorem witness_LoadResult (w : ZeroPagePointerWrap) :
    (Operand.mem (.indX 0xEF)).read (pointerBoard w) = .ok 0x00 ∧ ldaForm (.mem (.indX 0xEF)) = some (.ldaIndX 0xEF) ∧
    (Operand.mem (.zpY 0xEE)).read (pointerBoard w) = .ok 0x56 ∧ ldxForm (.mem (.zpY 0xEE)) = some (.ldxZpY 0xEE) ∧
    (Operand.imm 0x80).read (pointerBoard w) = .ok 0x80 ∧ ldyForm (.imm 0x80) = some (.ldyImm 0x80) := by
  cases w <;> exact ⟨rfl, rfl, rfl, rfl, rfl, rfl⟩
theorem witness_LoadResult_at_page_end :
    (Operand.mem (.indX 0xF0)).read (pointerBoard .wrapInZeroPage) = .ok 0x00 ∧
    (Operand.mem (.indY 0xFF)).read (pointerBoard .crossToPage1) = .ok 0x00 := ⟨rfl, rfl⟩

theorem witness_StoreResult (w : ZeroPagePointerWrap) :
    (MemMode.indY 0xFE).address (pointerBoard w) = .ok 0x3466 ∧ staForm (.indY 0xFE) = some (.staIndY 0xFE) ∧
    (MemMode.zpY 0xF0).address (pointerBoard w) = .ok 0x0000 ∧ stxForm (.zpY 0xF0) = some (.stxZpY 0xF0) ∧
    (MemMode.zpX 0xF0).address (pointerBoard w) = .ok 0x00FF ∧ styForm (.zpX 0xF0) = some (.styZpX 0xF0) := by
  cases w <;> exact ⟨rfl, rfl, rfl, rfl, rfl, rfl⟩

/-- Sums 255 (no carry) and 256 (carry), D = 0, T = 0 and T = 1. -/
theorem witness_AdcBinaryResult : adcForm (.imm 0xEE) = some (.adcImm 0xEE) ∧ adcForm (.imm 0xEF) = some (.adcImm 0xEF) ∧
    flag (wb 0x00 0xFF []).ps .d = false ∧ flag (wb 0x20 0xFF []).ps .d = false ∧ (first (wb 0x00 0xFF [])).toNat + 0xEE = 255 ∧
    (first (wb 0x00 0xFF [])).toNat + 0xEF = 256 ∧ (Operand.imm 0xEE).read (wb 0x00 0xFF []) = .ok 0xEE :=
  ⟨rfl, rfl, rfl, rfl, rfl, rfl, rfl⟩

/-- Differences 0 (no borrow) and -1 (borrow) with C = 1. -/
theorem witness_SbcBinaryResult : sbcForm (.imm 0x11) = some (.sbcImm 0x11) ∧ sbcForm (.imm 0x12) = some (.sbcImm 0x12) ∧
    flag (wb 0x01 0xFF []).ps .d = false ∧ first (wb 0x01 0xFF []) = 0x11 ∧ (Operand.imm 0x12).read (wb 0x01 0xFF []) = .ok 0x12 :=
  ⟨rfl, rfl, rfl, rfl, rfl⟩

/-- 11 + 88 = 99 and 11 + 89 = 100 in packed decimal; 11 - 11 and 11 - 12; 0A is not packed decimal. -/
theorem witness_DecimalResult : flag (wb 0x09 0xFF []).ps .d = true ∧ adcForm (.imm 0x88) = some (.adcImm 0x88) ∧
    sbcForm (.imm 0x12) = some (.sbcImm 0x12) ∧ twoDigits (first (wb 0x09 0xFF [])) ∧ twoDigits 0x88 ∧ twoDigits 0x89 ∧ twoDigits 0x12 ∧
    twoDigits 0x99 ∧ ¬ twoDigits 0x0A ∧ (Operand.imm 0x88).read (wb 0x09 0xFF []) = .ok 0x88 := by
  unfold twoDigits; exact ⟨rfl, rfl, rfl, by decide, by decide, by decide, by decide, by decide, by decide, rfl⟩

theorem witness_IncDecResult : (MemMode.zpX 0xFF).address (wb 0 0xFF []) = .ok 0x00FF ∧ incForm (.zpX 0xFF) = some (.incZpX 0xFF) ∧
    (MemMode.absX 0xFFFF).address (wb 0 0xFF []) = .ok 0xFFFF ∧ decForm (.absX 0xFFFF) = some (.decAbsX 0xFFFF) := ⟨rfl, rfl, rfl, rfl⟩

theorem witness_MulResult : State.reset.cfg.hasMulDiv = true ∧ { Config.reset with hasMulDiv := false }.hasMulDiv = false := ⟨rfl, rfl⟩

/-- Dividends 0x10FF (upper byte just below A = 11), 0x1100 (upper byte A) and one whose second byte is past the zero page. -/
theorem witness_DivResult :
    (wb 0 0xFF []).cfg.hasMulDiv = true ∧ secondByte (wb 0 0xFF []).cfg.zeroPagePointerWrap 0xFE = .ok 0x00FF ∧
    secondByte (wb 0 0xFF []).cfg.zeroPagePointerWrap 0xFF = .error .zeroPagePointerPageEnd ∧
    secondByte (pointerBoard .wrapInZeroPage).cfg.zeroPagePointerWrap 0xFF = .ok 0x0000 ∧
    0xFF#8 = (wb 0 0xFF [(0xFE, 0xFF), (0xFF, 0x10)]).busRead .dividendLow 0xFE ∧
    0x10#8 = (wb 0 0xFF [(0xFE, 0xFF), (0xFF, 0x10)]).busRead .dividendHigh 0xFF ∧ (0x10 : Nat) < (wb 0 0xFF []).a.toNat ∧
    0x11#8 = (wb 0 0xFF [(0xFF, 0x11)]).busRead .dividendHigh 0xFF ∧ (wb 0 0xFF []).a.toNat = 0x11 :=
  ⟨rfl, rfl, rfl, rfl, rfl, rfl, by decide, rfl, rfl⟩

theorem witness_LogicResult : (Operand.mem (.zp 0x30)).read (wb 0x20 0xFF []) = .ok 0x05 ∧ andForm (.mem (.zp 0x30)) = some (.andZp 0x30) ∧
    oraForm (.mem (.zp 0x30)) = some (.oraZp 0x30) ∧ eorForm (.mem (.zp 0x30)) = some (.eorZp 0x30) := ⟨rfl, rfl, rfl, rfl⟩

theorem witness_BitTstResult : bitForm (.abs 0xFFFF) = some (.bitAbs 0xFFFF) ∧ (MemMode.abs 0xFFFF).address (wb 0 0xFF []) = .ok 0xFFFF :=
  ⟨rfl, rfl⟩

/-- Equal, one below, one above. -/
theorem witness_CompareResult : (Operand.imm 0x11).read (wb 0 0xFF []) = .ok 0x11 ∧ cmpForm (.imm 0x11) = some (.cmpImm 0x11) ∧
    0x11#8 = first (wb 0 0xFF []) ∧ cpxForm (.imm 0x01) = some (.cpxImm 0x01) ∧ 0x00#8 = (wb 0 0xFF []).x ∧
    cpyForm (.imm 0x00) = some (.cpyImm 0x00) ∧ 0x00#8 = (wb 0 0xFF []).y := ⟨rfl, rfl, rfl, rfl, rfl, rfl, rfl⟩

theorem witness_ShiftResult : shiftForm .ror (.zpX 0xFF) = some (.rorZpX 0xFF) ∧ shiftForm .lsr (.abs 0x0000) = some (.lsrAbs 0x0000) ∧
    shiftForm .asl (.absX 0xFFFF) = some (.aslAbsX 0xFFFF) ∧ shiftForm .rol (.zp 0x00) = some (.rolZp 0x00) ∧
    (MemMode.zpX 0xFF).address (wb 0 0xFF []) = .ok 0x00FF := ⟨rfl, rfl, rfl, rfl, rfl⟩

theorem witness_FlagInstructions : (Instr.clv, 0xB8#8, Flag.v, false) ∈ [(Instr.clc, 0x18#8, Flag.c, false), (.sec, 0x38#8, .c, true),
    (.cld, 0xD8#8, .d, false), (.sed, 0xF8#8, .d, true), (.cli, 0x58#8, .i, false), (.sei, 0x78#8, .i, true),
    (.clt, 0x12#8, .t, false), (.set, 0x32#8, .t, true), (.clv, 0xB8#8, .v, false)] := by decide

/-- Displacements +127 and -128, a branch taken and one not taken. -/
theorem witness_BranchResult : (Instr.bra 0x7F, 0x80#8, true) ∈ [(Instr.bra 0x7F, 0x80#8, true)] ∧
    (Instr.bcc 0x80, 0x90#8, true) = (Instr.bcc 0x80, 0x90#8, !flag (wb 0x00 0xFF []).ps .c) ∧
    (Instr.bcc 0x80, 0x90#8, false) = (Instr.bcc 0x80, 0x90#8, !flag (wb 0x01 0xFF []).ps .c) := by decide

theorem witness_JmpResult : lowByte 0x12FE ≠ 0xFF#8 ∧ lowByte 0x12FF = 0xFF#8 ∧
    secondByte (wb 0 0 []).cfg.zeroPagePointerWrap 0xFE = .ok 0x00FF ∧
    secondByte (wb 0 0 []).cfg.zeroPagePointerWrap 0xFF = .error .zeroPagePointerPageEnd ∧
    secondByte (pointerBoard .crossToPage1).cfg.zeroPagePointerWrap 0xFF = .ok 0x0100 := ⟨by decide, by decide, rfl, rfl, rfl⟩

/-- JSR to an absolute address, to the special page and through the last pointer of the zero page, with S at its wrap; the same with
the stack in page 0 over the pointer. -/
theorem witness_JsrResult : PlainStack (wb 0 0x00 []) 2 ∧ PlainStack (wb 0 0xFF []) 2 ∧ PlainStack (paged 0 0xFF []) 2 ∧
    (Instr.jsrSp 0xFFC0).wellFormed = true ∧ Stored (wb 0 0 []) (zeroPage 0xFE) ∧ Stored (wb 0 0 []) (zeroPage (0xFE#8 + 1#8)) ∧
    Stored (paged 0 0 []) (zeroPage 0xFE) ∧ Stored (paged 0 0 []) (zeroPage (0xFE#8 + 1#8)) ∧ 0xFE#8 ≠ 0xFF#8 :=
  ⟨plainStack (by decide), plainStack (by decide), plainStack (by decide), rfl, rfl, rfl, rfl, rfl, by decide⟩

theorem witness_BitBranchResult : isRequestBit (wb 0 0 []).cfg (zeroPage 0x3E) 6 = false ∧
    isRequestBit (wb 0 0 []).cfg (zeroPage 0x3E) 7 = true ∧ (wb 0 0 []).lag = [] := by decide

theorem witness_CallThenReturn : PlainStack (wb 0 0xFF []) 2 ∧ PlainStack (wb 0 0x00 []) 2 ∧ PlainStack (paged 0 0x00 [(0x3B, 0x04)]) 2 ∧
    (∃ t, exec (.jsrAbs 0x1234) (wb 0 0xFF []) = .next t) ∧ (∃ t, exec (.jsrSp 0xFF00) (wb 0 0x00 []) = .next t) ∧
    (∃ t, exec (.jsrAbs 0x1234) (paged 0 0x00 [(0x3B, 0x04)]) = .next t) ∧ ∃ t, exec (.jsrZpInd 0xFE) (wb 0 0xFF []) = .next t := by
  refine ⟨plainStack (by decide), plainStack (by decide), plainStack (by decide), ⟨_, rfl⟩, ⟨_, rfl⟩,
    ⟨_, rfl⟩, ⟨_, rfl⟩⟩

/-- No masked source (I = 0, or none pending) with the vector not shared, shared with the last source, and shared with no source in the
list; and a masked pending source. -/
theorem witness_BrkResult : PlainStack (wb 0x00 0xFF []) 3 ∧ PlainStack (wb 0x04 0x01 [(0x3E, 0x81)]) 3 ∧
    PlainStack (paged 0x00 0x01 []) 3 ∧ StoredVector (wb 0 0 []) 0xFFF4 ∧ StoredVector (wb 0 0 []) 0xFFF8 ∧
    (wb 0x00 0xFF [(0x3E, 0x81)]).maskedPending = none ∧ (wb 0x00 0xFF []).cfg.brkSharesVector = false ∧
    (wb 0x00 0xFF []).cfg.vecBrk = 0xFFF4 ∧
    { wb 0x00 0xFF [] with cfg := { board [src1, src] with brkSharesVector := true } }.maskedPending = none ∧
    { board [src1, src] with brkSharesVector := true }.irqSources = [src1] ++ [src] ∧ src.vector = 0xFFF8 ∧
    { board [] with brkSharesVector := true }.irqSources = [] ∧ (wb 0x04 0x01 [(0x3E, 0x81)]).maskedPending = some src :=
  ⟨plainStack (by decide), plainStack (by decide), plainStack (by decide), ⟨rfl, rfl⟩, ⟨rfl, rfl⟩, by decide, rfl, rfl, by decide, rfl,
    rfl, rfl, by decide⟩

/-- R157 (b), R3: a BRK on a product that shares its vector goes to the vector of the source of lowest priority, the last of the list. -/
theorem test_brk_shares_vector :
    after { wb 0x00 0xFF [] with cfg := { board [src1, src] with brkSharesVector := true } } [0x00]
      (fun t => t.pc == 0xE000 && t.mem.read 0x1FD == 0x10) = true := by decide

theorem witness_BrkMaskedSource :
    flag (wb 0x00 0xFF []).ps .i = false ∧ flag (wb 0x04 0xFF []).ps .i = true ∧
    (wb 0x04 0xFF []).cfg.irqSources = [] ++ src1 :: [src] ∧ (wb 0x04 0xFF []).cfg.irqSources = [src1] ++ src :: [] ∧
    (wb 0x04 0xFF [(0x3E, 0x81), (0x3C, 0x01)]).requested src1 = true ∧ (wb 0x04 0xFF [(0x3E, 0x81), (0x3C, 0x01)]).enabled src1 = false ∧
    (wb 0x04 0xFF [(0x3E, 0x81), (0x3C, 0x01)]).requested src = true ∧ (wb 0x04 0xFF [(0x3E, 0x81), (0x3C, 0x01)]).enabled src = true ∧
    (∀ q ∈ (wb 0x04 0xFF []).cfg.irqSources, (wb 0x04 0xFF []).requested q = false) := by decide

theorem witness_WitStpNopResult : Config.reset.hasWit = true ∧ Config.reset.stpValid = true ∧
    { Config.reset with stpValid := false }.stpValid = false := ⟨rfl, rfl, rfl⟩

theorem witness_ExecutesUnlessRefused :
    refusalOf (.jmpInd 0x12FE) (wb 0 0 []) = none ∧ refusalOf (.jmpInd 0x12FF) (wb 0 0 []) = some .jmpIndirectPageEnd ∧
    refusalOf (.ldaIndX 0xFE) (wb 0 0 []) = none ∧ refusalOf (.ldaIndX 0xFF) (wb 0 0 []) = some .zeroPagePointerPageEnd ∧
    refusalOf (.ldaIndY 0xFF) (pointerBoard .wrapInZeroPage) = none ∧ refusalOf .wit (wb 0 0 []) = none ∧
    refusalOf (.mulZpX 0) { State.reset with cfg := { Config.reset with hasMulDiv := false } } = some (.absentInstruction "MUL") := by decide

/-- Instructions that write, and that do not write, A, X, Y, S, the flags and memory, with their next states; a store to a register that
may set a request bit elsewhere. -/
theorem witness_frames :
    writesA (.ldaImm 0x05) (wb 0x20 0xFF []) = false ∧ writesA (.ldaImm 0x05) (wb 0x00 0xFF []) = true ∧
    (∃ t, exec (.ldaImm 0x05) (wb 0x20 0xFF []) = .next t) ∧ storedAddresses (.ldaImm 0x05) (wb 0x20 0xFF []) = [0x0000] ∧
    writesX .tax = true ∧ writesY .tax = false ∧ writesS .tax = false ∧ writesFlag .tax .c = false ∧
    (∃ t, exec .tax (wb 0 0xFF []) = .next t) ∧
    storedAddresses .tax (wb 0 0xFF []) = [] ∧ storedAddresses (.jsrAbs 0x1234) (wb 0 0x00 []) = [0x0100, 0x01FF] ∧
    (∃ t, exec (.jsrAbs 0x1234) (wb 0 0x00 []) = .next t) ∧ kindAt (wb 0 0 []).cfg 0x0100 ≠ .port 0 ∧
    (∃ t, exec (.ldm 0x01 0x39) (wb 0 0xFF []) = .next t) ∧ storedAddresses (.ldm 0x01 0x39) (wb 0 0xFF []) = [0x0039] ∧
    sideAddresses (wb 0 0xFF []).cfg 0x0039 = [0x003C] := by
  refine ⟨by decide, by decide, ⟨_, rfl⟩, by decide, by decide, by decide, by decide, by decide, ⟨_, rfl⟩, by decide, by decide,
    ⟨_, rfl⟩, by decide, ⟨_, rfl⟩, by decide, by decide⟩

theorem witness_DecodeEncode : (Instr.jsrSp 0xFF00).wellFormed = true ∧ (Instr.jmpInd 0x00FE).wellFormed = true ∧
    (Instr.bbsZp 7 0xFF 0x80).wellFormed = true := by decide

theorem witness_EncodeDecode : decode [0x6C, 0xFE, 0x12, 0xEA] = .ok (.jmpInd 0x12FE, [0xEA]) ∧
    decode [0x6C, 0xFF, 0x12] = .ok (.jmpInd (concat 0x12 0xFF), []) ∧ (Instr.jmpInd 0x12FF).wellFormed = false := ⟨rfl, rfl, rfl⟩

theorem witness_UndefinedOpcodes :
    RunsInstruction (loaded (wb 0x04 0xFF []) [0x89]).arrive ∧
    (loaded (wb 0x04 0xFF []) [0x89]).arrive.busRead .opcode (loaded (wb 0x04 0xFF []) [0x89]).arrive.pc ∈ undefinedOpcodes ∧
    { Config.reset with hasWit := false }.hasWit = false := by
  refine ⟨⟨by decide, by decide⟩, by decide, rfl⟩

theorem witness_LengthByOpcode : decodeOpcode 0x00 0 0 = some .brk ∧ decodeOpcode 0x22 0xC0 0 = some (.jsrSp 0xFFC0) ∧
    decodeOpcode 0xFF 0x3E 0 = some (.clbZp 7 0x3E) ∧ decodeOpcode 0x3C 0x01 0x3E = some (.ldm 0x01 0x3E) := ⟨rfl, rfl, rfl, rfl⟩

theorem witness_StepRunsDecodedInstruction :
    RunsInstruction (loaded (wb 0x04 0xFF [(0x3E, 0x81)]) [0xA9, 0x05]).arrive ∧
    decode (loaded (wb 0x04 0xFF [(0x3E, 0x81)]) [0xA9, 0x05]).arrive.fetchBytes = .ok (.ldaImm 0x05, []) ∧
    hazardRefusal (wb 0x04 0xFF [(0x3E, 0x81)]).hazard (.ldaImm 0x05) = none ∧
    (∃ t, exec (.ldaImm 0x05) (loaded (wb 0x04 0xFF []) [0xA9, 0x05]).arrive = .next t) ∧
    ∃ r, exec (.jmpInd 0x12FF) (loaded (wb 0x04 0xFF []) [0x6C, 0xFF, 0x12]).arrive = .refused r := by
  refine ⟨⟨by decide, by decide⟩, rfl, rfl, ⟨_, rfl⟩, ⟨_, rfl⟩⟩

/-- A three-byte instruction whose second byte is in the last address and whose third is at 0x0000, and the forbidden JMP ($xxFF). -/
theorem witness_StepRunsDecodedInstruction_placed :
    let s := loaded { start 0x04 0 0 0 0xFF [] with pc := 0xFFFE } [0x3C, 0xA5, 0x40]
    RunsInstruction s.arrive ∧ (Instr.ldm 0xA5 0x40).wellFormed = true ∧ Placed s.arrive (.ldm 0xA5 0x40) ∧
    hazardRefusal s.arrive.hazard (.ldm 0xA5 0x40) = none ∧ (∃ t, exec (.ldm 0xA5 0x40) s.arrive = .next t) ∧
    Instr.jmpInd 0x12FF = .jmpInd (concat 0x12#8 0xFF#8) ∧ Placed (loaded (wb 0x04 0xFF []) [0x6C, 0xFF, 0x12]).arrive (.jmpInd 0x12FF) := by
  refine ⟨⟨by decide, by decide⟩, rfl, ?_, rfl, ⟨_, rfl⟩, rfl, ?_⟩ <;>
    (rintro (_ | _ | _ | k) v h <;> cases h <;> exact ⟨rfl, rfl⟩)

/-- The first such source requested and enabled, and the first such source a forced one with its request bit 0. -/
theorem witness_AcceptanceCondition :
    (wb 0 0 []).cfg.irqSources = [src1] ++ src :: [] ∧ flag (wb 0x00 0xFF []).ps .i = false ∧
    (wb 0x00 0xFF [(0x3E, 0x81)]).requested src = true ∧ (wb 0x00 0xFF [(0x3E, 0x81)]).enabled src = true ∧
    (∀ p ∈ [src1], (wb 0x00 0xFF [(0x3E, 0x81)]).requested p = false ∧ p ∉ (wb 0x00 0xFF [(0x3E, 0x81)]).forced) ∧
    src ∈ { wb 0x00 0xFF [(0x3E, 0x01)] with forced := [src] }.forced ∧ (wb 0x00 0xFF [(0x3E, 0x01)]).requested src = false ∧
    { wb 0x00 0xFF [(0x3E, 0x01)] with forced := [src] }.acceptable (fun _ => true) = some src := by decide

/-- R175 with a forced source of lower priority: the requested one is accepted, and the forced one is not pending after it. -/
theorem test_forced_source_loses :
    gives (step { wb 0x00 0xFF [(0x3C, 0x01), (0x3D, 0x01), (0x3E, 0x01)] with forced := [src] })
      (fun t => t.pc == 0xE100 && t.forced == [] && t.mem.read 0x3E == 0x01) = true := by decide

/-- With S = 01 the third push wraps to 0x01FF, and to 0x00FF with the stack in page 0; another request in the same register stays; in
RUN, out of WAIT and out of STOP. -/
theorem witness_InterruptAcceptance :
    (wb 0x00 0x01 [(0x3E, 0x81)]).arrive.acceptable (wb 0x00 0x01 [(0x3E, 0x81)]).arrive.wakes = some src ∧
    PlainStack (wb 0x00 0x01 [(0x3E, 0x81)]).arrive 3 ∧ StoredVector (wb 0x00 0x01 [(0x3E, 0x81)]).arrive src.vector ∧
    (paged 0x00 0x01 [(0x3E, 0x81)]).arrive.acceptable (paged 0x00 0x01 []).arrive.wakes = some src ∧
    PlainStack (paged 0x00 0x01 [(0x3E, 0x81)]).arrive 3 ∧ StoredVector (paged 0x00 0x01 [(0x3E, 0x81)]).arrive src.vector ∧
    { wb 0x00 0x01 [(0x3E, 0x81)] with run := .wait }.arrive.acceptable { wb 0 0 [] with run := .wait }.arrive.wakes = some src ∧
    PlainStack { wb 0x00 0x01 [(0x3E, 0x81)] with run := .wait }.arrive 3 ∧
    { wb 0x00 0x01 [(0x3C, 0x01), (0x3D, 0x01)] with run := .stop }.arrive.acceptable { wb 0 0 [] with run := .stop }.arrive.wakes =
      some src1 ∧
    PlainStack { wb 0x00 0x01 [(0x3C, 0x01), (0x3D, 0x01)] with run := .stop }.arrive 3 ∧ StoredVector (wb 0 0 []) src1.vector ∧
    src1 ∈ (wb 0x00 0x01 []).arrive.cfg.irqSources ∧ ¬(src1.requestAddress = src.requestAddress ∧ src1.requestBit = src.requestBit) :=
  ⟨by decide, plainStack (by decide), ⟨rfl, rfl⟩, by decide, plainStack (by decide), ⟨rfl, rfl⟩, by decide, plainStack (by decide),
    by decide, plainStack (by decide), ⟨rfl, rfl⟩, by decide, by decide⟩

theorem witness_ReturnFromInterruptRestores : PlainStack (wb 0x00 0x01 []) 3 ∧ PlainStack (paged 0x00 0x01 []) 3 ∧
    src ∈ (wb 0x00 0x01 []).cfg.irqSources ∧ ∃ t, exec .brk (wb 0x04 0x01 []) = .next t := by
  exact ⟨plainStack (by decide), plainStack (by decide), by decide, ⟨_, rfl⟩⟩

/-- In WAIT a source that wakes it, in STOP one that wakes it and one that does not, nothing acceptable; and, where no acceptance is
asked for, a request that can wake the state and one that cannot. -/
theorem witness_StandbyStep :
    { wb 0x00 0xFF [(0x3E, 0x81)] with run := .wait }.arrive.acceptable { wb 0x00 0xFF [(0x3E, 0x81)] with run := .wait }.wakes = some src ∧
    { wb 0x00 0xFF [(0x3C, 0x01), (0x3D, 0x01)] with run := .stop }.arrive.acceptable { wb 0 0 [] with run := .stop }.wakes = some src1 ∧
    { wb 0x00 0xFF [(0x3E, 0x81)] with run := .stop }.arrive.acceptable { wb 0 0 [] with run := .stop }.wakes = none ∧
    { wb 0x04 0xFF [(0x3E, 0x81)] with run := .wait }.arrive.acceptable { wb 0 0 [] with run := .wait }.wakes = none ∧
    { wb 0x00 0xFF [] with run := .wait }.arrive.run = .wait ∧ (wb 0x00 0xFF []).arrive.cfg.wakeRequiresAccept = true ∧
    { board [src1, src] with wakeRequiresAccept := false }.wakeRequiresAccept = false ∧
    { wb 0x04 0xFF [(0x3E, 0x81)] with run := .wait }.wakes src = true ∧ (wb 0x04 0xFF [(0x3E, 0x81)]).requested src = true ∧
    (∀ q ∈ (wb 0 0 []).cfg.irqSources, { wb 0x04 0xFF [(0x3E, 0x81)] with run := .stop }.wakes q = true →
      (wb 0x04 0xFF [(0x3E, 0x81)]).requested q = false) := by decide

/-- Sources and registers by number and address at the ends of their ranges, and the ones past the end. -/
theorem witness_OutsideMoves :
    { wb 0 0 [] with outside := [[.request 0, .pins 0 0x55], []] }.outside = [.request 0, .pins 0 0x55] :: [[]] ∧
    (wb 0 0 []).cfg.irqSources[1]? = some src ∧ (wb 0 0 []).cfg.irqSources.length ≤ 2 ∧ 0 < (wb 0 0 []).ports.length ∧
    (wb 0 0 []).ports.length ≤ 1 ∧
    kindAt (wb 0 0 []).cfg 0x0038 = .register halves ∧ bitOf halves.outsideMask 4 = true ∧ bitOf halves.outsideMask 3 = false ∧
    isRequestBit (wb 0 0 []).cfg 0x0038 4 = false ∧ isRequestBit (wb 0 0 []).cfg 0x003C 0 = true ∧
    kindAt (wb 0 0 []).cfg 0x0037 = .ram := by decide

/-- I = 1, and I = 0 with an acceptable source that cannot end STOP. -/
theorem witness_AsleepForever : { wb 0x04 0xFF [(0x3E, 0x81)] with run := .stop }.Asleep ∧
    { wb 0x00 0xFF [(0x3E, 0x81)] with run := .stop }.Asleep ∧ (wb 0x00 0xFF [(0x3E, 0x81)]).accepts src = true := by
  unfold State.Asleep State.Quiet State.NoneAcceptable; decide

theorem witness_SelfBranchForever :
    (loaded (wb 0x04 0xFF [(0x3E, 0x81)]) [0x80, 0xFE]).Quiet ∧ flag (loaded (wb 0x04 0xFF [(0x3E, 0x81)]) [0x80, 0xFE]).ps .i = true ∧
    (loaded (wb 0x04 0xFF [(0x3E, 0x81)]) [0x80, 0xFE]).hazard ≠ .afterPlp ∧ kindAt (wb 0 0 []).cfg 0xC000 = .ram ∧
    kindAt (wb 0 0 []).cfg 0xC001 = .ram ∧ (loaded (wb 0x04 0xFF [(0x3E, 0x81)]) [0x80, 0xFE]).mem.read 0xC000 = 0x80 ∧
    (loaded (wb 0x04 0xFF [(0x3E, 0x81)]) [0x80, 0xFE]).mem.read 0xC001 = 0xFE ∧ kindAt (wb 0 0 []).cfg 0xE000 = .rom := by
  unfold State.Quiet; decide

theorem witness_PlpNeedsNop :
    RunsInstruction (loaded { wb 0x04 0xFF [] with hazard := .afterPlp } [0xEA]).arrive ∧
    decode (loaded { wb 0x04 0xFF [] with hazard := .afterPlp } [0xEA]).arrive.fetchBytes = .ok (.nop, []) ∧
    RunsInstruction (loaded { wb 0x04 0xFF [] with hazard := .afterPlp } [0x28]).arrive ∧
    decode (loaded { wb 0x04 0xFF [] with hazard := .afterPlp } [0x28]).arrive.fetchBytes = .ok (.plp, []) :=
  ⟨⟨by decide, by decide⟩, rfl, ⟨by decide, by decide⟩, rfl⟩

theorem witness_DecimalNeedsSpacing :
    adcForm (.imm 0x01) = some (.adcImm 0x01) ∧ sbcForm (.mem (.indY 0xFE)) = some (.sbcIndY 0xFE) ∧ flag (wb 0x0C 0xFF []).ps .d = true ∧
    isAddOrSubtract .nop = false ∧ flag (wb 0x04 0xFF []).ps .d = false ∧
    RunsInstruction (loaded { wb 0x0C 0xFF [] with hazard := .afterDecimal } [0x18]).arrive ∧
    decode (loaded { wb 0x0C 0xFF [] with hazard := .afterDecimal } [0x18]).arrive.fetchBytes = .ok (.clc, []) ∧
    decode (loaded { wb 0x0C 0xFF [] with hazard := .afterDecimal } [0xF8]).arrive.fetchBytes = .ok (.sed, []) :=
  ⟨rfl, rfl, rfl, rfl, rfl, ⟨by decide, by decide⟩, rfl, rfl⟩

/-- CLB 7,$3E with the bit 1 and with the bit 0, and NOP, which leaves the register alone; the register plain. -/
theorem witness_RequestBitLag :
    (∃ t, exec (.clbZp 7 0x3E) (wb 0x04 0xFF [(0x3E, 0x81)]) = .next t ∧ t.requested src = false) ∧
    (∃ t, exec (.clbZp 7 0x3E) (wb 0x04 0xFF [(0x3E, 0x01)]) = .next t) ∧
    src ∈ (wb 0 0 []).cfg.irqSources ∧ (wb 0x04 0xFF [(0x3E, 0x81)]).overwritten = [] ∧
    src.requestAddress = zeroPage 0x3E ∧ kindAt (wb 0 0 []).cfg (zeroPage 0x3E) = .register .plain ∧
    bitOf RegisterBehaviour.plain.readMask src.requestBit.toNat = true ∧
    storedAddresses (.clbZp 7 0x3E) (wb 0x04 0xFF [(0x3E, 0x81)]) = [zeroPage 0x3E] ∧
    (∃ t, exec .nop (wb 0x04 0xFF [(0x3E, 0x81)]) = .next t) ∧ storedAddresses .nop (wb 0x04 0xFF [(0x3E, 0x81)]) = [] :=
  ⟨⟨_, rfl, by decide⟩, ⟨_, rfl⟩, by decide, rfl, by decide, by decide, by decide, by decide, ⟨_, rfl⟩, rfl⟩

theorem witness_ForcedAcceptance :
    ∃ t, exec (.ldm 0x01 0x3E) (wb 0x00 0xFF [(0x3E, 0x80)]) = .next t ∧ src ∈ (wb 0 0 []).cfg.irqSources ∧
      src.requestAddress = src.enableAddress ∧ (wb 0x00 0xFF [(0x3E, 0x80)]).requested src = true ∧ t.requested src = false ∧
      t.enabled src = true ∧ flag t.ps .i = false :=
  ⟨_, rfl, by decide, by decide, by decide, by decide, by decide, by decide⟩

theorem witness_CycleCounts : adcForm (.mem (.indX 0xFF)) = some (.adcIndX 0xFF) ∧ bitForm (.zp 0x00) = some (.bitZp 0x00) ∧
    staForm (.absY 0xFFFF) = some (.staAbsY 0xFFFF) ∧ incForm (.absX 0x0000) = some (.incAbsX 0x0000) := ⟨rfl, rfl, rfl, rfl⟩

/-- A step from a state of the invariant: an instruction, an acceptance, a store to ROM, T and B changed by SET and BRK. -/
theorem witness_whole_machine :
    (wb 0x04 0xFF []).Inv ∧ (∃ t, step (loaded (wb 0x04 0xFF []) [0x8D, 0x05, 0xE0]) = .next t) ∧ kindAt (wb 0 0 []).cfg 0xE005 = .rom ∧
    (∀ q ∈ (wb 0 0 []).cfg.irqSources, q.requestAddress ≠ 0xE005) ∧ (∃ t, step (wb 0x00 0xFF [(0x3E, 0x81)]) = .next t) ∧
    (loaded (wb 0x04 0xFF []) [0x32]).Quiet ∧ after (wb 0x04 0xFF []) [0x32] (fun t => flag t.ps .t) = true ∧
    after (wb 0x04 0xFF []) [0x00] (fun t => flag t.ps .b) = true ∧
    gives (step (wb 0x10 0xFF [(0x3E, 0x81)])) (fun t => !flag t.ps .b) = true ∧ flag (wb 0x10 0xFF []).ps .b = true ∧
    (wb 0x10 0xFF [(0x3E, 0x81)]).acceptable (wb 0x10 0xFF []).wakes = some src := by
  refine ⟨by unfold State.Inv State.Formed; decide, ⟨_, rfl⟩, by decide, by decide, ⟨_, rfl⟩, rfl, by decide, by decide, by decide, rfl,
    by decide⟩

end Sys2Proof.Tests
end

/-! The statements about the definitions of 00_scope.md, from what `flag_setNZ` says of each flag. -/
namespace Sys2Proof.Proofs

open Sys2Proof.Machine

/-- Settles O3, flag by flag. -/
theorem setNZRule : Obligations.SetNZRule := by
  intro ps v
  refine ⟨?negative, ?zero, ?others⟩
  case negative => rw [flag_setNZ, if_neg (by decide), if_pos rfl, bitOf]
  case zero => rw [flag_setNZ, if_pos rfl, beq_iff_eq]
  case others =>
    intro f hn hz
    rw [flag_setNZ, if_neg hz, if_neg hn]

end Sys2Proof.Proofs

/-! The statement about the undefined opcodes of 30_encoding.md R54. Whether an opcode has an instruction is read off the opcode byte
alone, so the table of 256 opcodes settles it for every list of bytes; the rest is what the step does with an opcode that has none, and
what the products without MUL, DIV, WIT or a valid STP do. -/
namespace Sys2Proof.Proofs

open Sys2Proof.Machine Sys2Proof.Claims

theorem bitNumber_cases : ∀ i : BitNumber, i = 0 ∨ i = 1 ∨ i = 2 ∨ i = 3 ∨ i = 4 ∨ i = 5 ∨ i = 6 ∨ i = 7 := by decide

/-- In every column of the opcode map, the operand bytes do not decide whether there is an instruction (R52). -/
theorem decodeColumns_isNone (lo : BitVec 5) (hi : BitNumber) (b1 b2 c1 c2 : Byte) :
    (decodeColumns lo hi b1 b2).isNone = (decodeColumns lo hi c1 c2).isNone := by
  unfold decodeColumns
  split
  all_goals rcases bitNumber_cases hi with rfl | rfl | rfl | rfl | rfl | rfl | rfl | rfl <;> rfl

/-- The table of the 256 opcodes, with operand bytes 0 (R52, R54). -/
theorem decodeOpcode_zero_isNone : ∀ op : Byte, (decodeOpcode op 0 0).isNone = true ↔ op ∈ undefinedOpcodes := by decide

/-- An opcode has no instruction exactly when it is one of the 25, whatever bytes follow it (R54). -/
theorem decodeOpcode_eq_none_iff (op b1 b2 : Byte) : decodeOpcode op b1 b2 = none ↔ op ∈ undefinedOpcodes := by
  have operands : (decodeOpcode op b1 b2).isNone = (decodeOpcode op 0 0).isNone := decodeColumns_isNone ..
  rw [← Option.isNone_iff_eq_none, operands, decodeOpcode_zero_isNone]

/-- Decoding blames the opcode exactly when it has no instruction; a defined opcode can only lack operand bytes (R50, R54). -/
theorem decode_eq_undefinedOpcode_iff (op : Byte) (rest : List Byte) :
    decode (op :: rest) = .error (.undefinedOpcode op) ↔ op ∈ undefinedOpcodes := by
  rw [← decodeOpcode_eq_none_iff op (rest.getD 0 0x00#8) (rest.getD 1 0x00#8), decode]
  cases decodeOpcode op (rest.getD 0 0x00#8) (rest.getD 1 0x00#8) with
  | none => simp
  | some i => by_cases enough : i.length ≤ rest.length + 1 <;> simp [enough]

theorem opcodeLength_pos : ∀ op : Byte, 0 < opcodeLength op := by decide

/-- The fetched bytes begin with the opcode at PC (R50). -/
theorem fetchBytes_eq_cons (s : State) : ∃ rest, s.fetchBytes = s.busRead .opcode s.pc :: rest := by
  obtain ⟨n, hn⟩ := Nat.exists_eq_succ_of_ne_zero (opcodeLength_pos (s.busRead .opcode s.pc)).ne'
  exact ⟨_, by rw [State.fetchBytes, hn]; exact List.take_succ_cons⟩

/-- Fetching an opcode without an instruction is refused, naming it (R54). -/
theorem fetch_of_mem_undefinedOpcodes {s : State} (h : s.busRead .opcode s.pc ∈ undefinedOpcodes) :
    s.fetch = .error (.undefinedOpcode (s.busRead .opcode s.pc)) := by
  obtain ⟨rest, bytes⟩ := fetchBytes_eq_cons s
  rw [State.fetch, bytes, (decode_eq_undefinedOpcode_iff _ rest).mpr h]

/-- At a boundary where an instruction runs, the step is that instruction (00_scope.md R6). -/
theorem step_of_runsInstruction {s : State} (h : RunsInstruction s.arrive) : step s = runInstruction s.arrive := by
  obtain ⟨running, noInterrupt⟩ := h
  simp only [step, atBoundary, running, noInterrupt]

theorem runInstruction_of_fetch_error {s : State} {r : Refusal} (h : s.fetch = .error r) : runInstruction s = .refused r := by
  rw [runInstruction, h]

/-- An instruction the product lacks is refused by name (R54). -/
theorem whenPresent_of_absent {present : Bool} (h : present = false) (mnemonic : String) (r : Result) :
    whenPresent present mnemonic r = .refused (.absentInstruction mnemonic) := by
  rw [whenPresent, h, if_neg Bool.false_ne_true]

theorem exec_mulZpX_of_absent {s : State} (zz : Byte) (h : s.cfg.hasMulDiv = false) :
    exec (.mulZpX zz) s = .refused (.absentInstruction "MUL") := whenPresent_of_absent h ..

theorem exec_divZpX_of_absent {s : State} (zz : Byte) (h : s.cfg.hasMulDiv = false) :
    exec (.divZpX zz) s = .refused (.absentInstruction "DIV") := whenPresent_of_absent h ..

theorem exec_wit_of_absent {s : State} (h : s.cfg.hasWit = false) : exec .wit s = .refused (.absentInstruction "WIT") :=
  whenPresent_of_absent h ..

/-- Where STP is invalid it does what NOP does (47_interrupt_special_other.md R159). -/
theorem exec_stp_of_invalid {s : State} (h : s.cfg.stpValid = false) : exec .stp s = exec .nop s := by
  change execStp s = execNop s
  rw [execStp, execNop, h, if_neg Bool.false_ne_true]

/-- Settles O41: decoding by the opcode table, the step through its fetch, the absent instructions through their arms. -/
theorem undefinedOpcodes : Obligations.UndefinedOpcodes := by
  refine ⟨decode_eq_undefinedOpcode_iff, rfl, ?refusedByStep, ?noMulDiv, fun _ => exec_wit_of_absent, fun _ => exec_stp_of_invalid⟩
  case refusedByStep =>
    intro s runs undefined
    rw [step_of_runsInstruction runs, runInstruction_of_fetch_error (fetch_of_mem_undefinedOpcodes undefined)]
  case noMulDiv => exact fun s zz absent => ⟨exec_mulZpX_of_absent zz absent, exec_divZpX_of_absent zz absent⟩

end Sys2Proof.Proofs

/-! The statement about the register transfers of 41_data_transfer.md R88 to R93: what each of the six arms leaves, and the cycles of an
instruction that takes no extra ones. -/
namespace Sys2Proof.Proofs

open Sys2Proof.Machine

/-- An instruction that T does not lengthen and that takes no branch needs its base cycles alone (R203 to R205). -/
theorem cyclesOf_eq_baseCycles {i : Instr} {s : State} (noExtra : extraCyclesT i = 0) (noBranch : takesBranch i s = false) :
    cyclesOf i s = baseCycles i := by
  simp only [cyclesOf, noExtra, noBranch, ite_self, Bool.false_eq_true, if_false, Nat.add_zero]

section transfers
variable (s : State)

theorem exec_tax : exec .tax s = .next { s.advance 1 with x := s.a, ps := setNZ s.ps s.a } := rfl

theorem exec_txa : exec .txa s = .next { s.advance 1 with a := s.x, ps := setNZ s.ps s.x } := rfl

theorem exec_tay : exec .tay s = .next { s.advance 1 with y := s.a, ps := setNZ s.ps s.a } := rfl

theorem exec_tya : exec .tya s = .next { s.advance 1 with a := s.y, ps := setNZ s.ps s.y } := rfl

theorem exec_tsx : exec .tsx s = .next { s.advance 1 with x := s.sp, ps := setNZ s.ps s.sp } := rfl

theorem exec_txs : exec .txs s = .next { s.advance 1 with sp := s.x } := rfl

end transfers

/-- Settles O11, transfer by transfer: the opcode from the encoding table, the cycles without T or branch, the state from the arm. -/
theorem transferResult : Obligations.TransferResult := by
  intro s
  refine ⟨?tax, ?txa, ?tay, ?tya, ?tsx, ?txs⟩
  case tax => exact ⟨rfl, cyclesOf_eq_baseCycles rfl rfl, exec_tax s⟩
  case txa => exact ⟨rfl, cyclesOf_eq_baseCycles rfl rfl, exec_txa s⟩
  case tay => exact ⟨rfl, cyclesOf_eq_baseCycles rfl rfl, exec_tay s⟩
  case tya => exact ⟨rfl, cyclesOf_eq_baseCycles rfl rfl, exec_tya s⟩
  case tsx => exact ⟨rfl, cyclesOf_eq_baseCycles rfl rfl, exec_tsx s⟩
  case txs => exact ⟨rfl, cyclesOf_eq_baseCycles rfl rfl, exec_txs s⟩

end Sys2Proof.Proofs

/-! The statement about INC, DEC, INX, DEX, INY and DEY (42_arithmetic.md R102 to R107): a byte plus or minus 1 as a number, what the
register forms leave, and that every memory form is the read-modify-write of its mode. -/
namespace Sys2Proof.Proofs

open Sys2Proof.Machine Sys2Proof.Claims

/-- Adding 1 to a byte wraps from 255 to 0 (R102). -/
theorem toNat_add_one (v : Byte) : (v + 1#8).toNat = (v.toNat + 1) % 256 := BitVec.toNat_add v 1#8

/-- Subtracting 1 from a byte is adding 255 modulo 256 (R103). -/
theorem toNat_sub_one (v : Byte) : (v - 1#8).toNat = (v.toNat + 255) % 256 := by
  rw [BitVec.toNat_sub, Nat.add_comm]
  rfl

section registerForms
variable (s : State)

theorem exec_incA : exec .incA s = .next { s.advance 1 with a := s.a + 1#8, ps := setNZ s.ps (s.a + 1#8) } := rfl

theorem exec_decA : exec .decA s = .next { s.advance 1 with a := s.a - 1#8, ps := setNZ s.ps (s.a - 1#8) } := rfl

theorem exec_inx : exec .inx s = .next { s.advance 1 with x := s.x + 1#8, ps := setNZ s.ps (s.x + 1#8) } := rfl

theorem exec_dex : exec .dex s = .next { s.advance 1 with x := s.x - 1#8, ps := setNZ s.ps (s.x - 1#8) } := rfl

theorem exec_iny : exec .iny s = .next { s.advance 1 with y := s.y + 1#8, ps := setNZ s.ps (s.y + 1#8) } := rfl

theorem exec_dey : exec .dey s = .next { s.advance 1 with y := s.y - 1#8, ps := setNZ s.ps (s.y - 1#8) } := rfl

end registerForms

section memoryForms
variable {s : State} {m : MemMode} {i : Instr} {ea : Word}

/-- Each of the four memory forms of INC is the read-modify-write of its mode (R102). -/
theorem exec_of_incForm (form : incForm m = some i) : exec i s = modifyMemory i.length incComputed m s := by
  cases m with
  | zp | zpX | abs | absX => cases form; rfl
  | zpY | absY | indX | indY => cases form

/-- Each of the four memory forms of DEC is the read-modify-write of its mode (R103). -/
theorem exec_of_decForm (form : decForm m = some i) : exec i s = modifyMemory i.length decComputed m s := by
  cases m with
  | zp | zpX | abs | absX => cases form; rfl
  | zpY | absY | indX | indY => cases form

theorem exec_incMemory (address : m.address s = .ok ea) (form : incForm m = some i) :
    exec i s = .next { (s.advance i.length).busWrite ea (s.busRead .data ea + 1#8) with
      ps := setNZ s.ps (s.busRead .data ea + 1#8) } :=
  (exec_of_incForm form).trans (modifyMemory_next.mpr ⟨ea, address, rfl⟩)

theorem exec_decMemory (address : m.address s = .ok ea) (form : decForm m = some i) :
    exec i s = .next { (s.advance i.length).busWrite ea (s.busRead .data ea - 1#8) with
      ps := setNZ s.ps (s.busRead .data ea - 1#8) } :=
  (exec_of_decForm form).trans (modifyMemory_next.mpr ⟨ea, address, rfl⟩)

end memoryForms

/-- Settles O16: the encodings and cycles from their tables, then each form's result with its value as a number. -/
theorem incDecResult : Obligations.IncDecResult := by
  intro s
  refine ⟨?encodings, ?incA, ?decA, ?inx, ?dex, ?iny, ?dey, ?memory⟩
  case encodings =>
    exact ⟨rfl, rfl, rfl, rfl, cyclesOf_eq_baseCycles rfl rfl, cyclesOf_eq_baseCycles rfl rfl, cyclesOf_eq_baseCycles rfl rfl,
      cyclesOf_eq_baseCycles rfl rfl⟩
  case incA => exact ⟨_, exec_incA s, toNat_add_one s.a⟩
  case decA => exact ⟨_, exec_decA s, toNat_sub_one s.a⟩
  case inx => exact ⟨_, exec_inx s, toNat_add_one s.x⟩
  case dex => exact ⟨_, exec_dex s, toNat_sub_one s.x⟩
  case iny => exact ⟨_, exec_iny s, toNat_add_one s.y⟩
  case dey => exact ⟨_, exec_dey s, toNat_sub_one s.y⟩
  case memory =>
    intro m i ea address
    exact ⟨fun form => ⟨_, toNat_add_one _, exec_incMemory address form⟩,
      fun form => ⟨_, toNat_sub_one _, exec_decMemory address form⟩⟩

end Sys2Proof.Proofs

/-! The statement about COM and RRF (43_logic_compare.md R115, 44_shift_rotate.md R126): the exchanged nibbles of a byte as a number,
and what the two read-modify-write arms leave. -/
namespace Sys2Proof.Proofs

open Sys2Proof.Machine

theorem highNibble_toNat (v : Byte) : (highNibble v).toNat = v.toNat / 16 := by
  have bound := v.isLt
  simp only [highNibble, BitVec.extractLsb'_toNat, Nat.shiftRight_eq_div_pow]
  omega

theorem lowNibble_toNat (v : Byte) : (lowNibble v).toNat = v.toNat % 16 := BitVec.extractLsb'_toNat 0 4 v

/-- Of two nibbles side by side the first counts sixteens. -/
theorem toNat_append_nibbles (hi lo : BitVec 4) : (hi ++ lo : Byte).toNat = hi.toNat * 16 + lo.toNat := by
  rw [BitVec.toNat_append, Nat.shiftLeft_eq, ← Nat.mul_comm (2 ^ 4), Nat.two_pow_add_eq_or_of_lt lo.isLt]

/-- Exchanging the nibbles of a byte exchanges its remainder and its quotient by 16 (R126). -/
theorem toNat_swap_nibbles (v : Byte) : (lowNibble v ++ highNibble v : Byte).toNat = v.toNat % 16 * 16 + v.toNat / 16 := by
  rw [toNat_append_nibbles, lowNibble_toNat, highNibble_toNat]

/-- Putting back the status byte that a bus write left alone changes nothing. -/
theorem busWrite_with_ps (s : State) (ea : Word) (v : Byte) : { s.busWrite ea v with ps := s.ps } = s.busWrite ea v := by
  rw [← busWrite_ps s ea v]

section zeroPageForms
variable (s : State) (zz : Byte)

theorem exec_comZp : exec (.comZp zz) s = .next { (s.advance 2).busWrite (zeroPage zz) (~~~s.busRead .data (zeroPage zz)) with
    ps := setNZ s.ps (~~~s.busRead .data (zeroPage zz)) } := rfl

theorem exec_rrfZp : exec (.rrfZp zz) s = .next ((s.advance 2).busWrite (zeroPage zz)
    (lowNibble (s.busRead .data (zeroPage zz)) ++ highNibble (s.busRead .data (zeroPage zz)))) :=
  (modifyMemory_next (m := .zp zz) (f := rrfComputed)).mpr ⟨zeroPage zz, rfl, (busWrite_with_ps (s.advance 2) _ _).symm⟩

end zeroPageForms

/-- Settles O20: the encodings and cycles from their tables, then the byte each of the two leaves, as a number. -/
theorem comRrfResult : Obligations.ComRrfResult := by
  intro s zz
  refine ⟨rfl, cyclesOf_eq_baseCycles rfl rfl, rfl, cyclesOf_eq_baseCycles rfl rfl, ?com, ?rrf⟩
  case com => exact ⟨_, BitVec.toNat_not, exec_comZp s zz⟩
  case rrf => exact ⟨_, toNat_swap_nibbles _, exec_rrfZp s zz⟩

end Sys2Proof.Proofs

/-! The statement about BIT and TST (43_logic_compare.md R116, R117): both forms of BIT are the memory test of their mode, and the flags
are those `flag_bitTestPS` reads off. -/
namespace Sys2Proof.Proofs

open Sys2Proof.Machine Sys2Proof.Claims

/-- Each of the two forms of BIT is the memory test of its mode (R116). -/
theorem exec_of_bitForm {s : State} {m : MemMode} {i : Instr} (form : bitForm m = some i) :
    exec i s = testMemory i.length (fun ps v => bitTestPS ps s.a v) m s := by
  cases m with
  | zp | abs => cases form; rfl
  | zpX | zpY | absX | absY | indX | indY => cases form

theorem exec_bitMemory {s : State} {m : MemMode} {i : Instr} {ea : Word} (address : m.address s = .ok ea) (form : bitForm m = some i) :
    exec i s = .next { s.advance i.length with ps := bitTestPS s.ps s.a (s.busRead .data ea) } :=
  (exec_of_bitForm form).trans (testMemory_next.mpr ⟨ea, address, rfl⟩)

theorem exec_tstZp (s : State) (zz : Byte) :
    exec (.tstZp zz) s = .next { s.advance 2 with ps := setNZ s.ps (s.busRead .data (zeroPage zz)) } := rfl

/-- BIT leaves every flag but N, V and Z (R116). -/
theorem flag_bitTestPS_other {f : Flag} (ps a m : Byte) (notZ : f ≠ .z) (notV : f ≠ .v) (notN : f ≠ .n) :
    flag (bitTestPS ps a m) f = flag ps f := by
  rw [flag_bitTestPS, if_neg notZ, if_neg notV, if_neg notN]

/-- Settles O21: the encodings and cycles from their tables, BIT by its two forms and flag by flag, TST by its arm. -/
theorem bitTstResult : Obligations.BitTstResult := by
  intro s
  refine ⟨?zeroPageEncodings, ?absoluteEncoding, ?bit, exec_tstZp s⟩
  case zeroPageEncodings => exact fun zz => ⟨rfl, cyclesOf_eq_baseCycles rfl rfl, rfl, cyclesOf_eq_baseCycles rfl rfl⟩
  case absoluteEncoding => exact fun hhll => ⟨rfl, cyclesOf_eq_baseCycles rfl rfl⟩
  case bit =>
    intro m i ea form address
    refine ⟨_, exec_bitMemory address form, ?n, ?v, ?z, ?others⟩
    case n => exact flag_bitTestPS s.ps s.a _ .n
    case v => exact flag_bitTestPS s.ps s.a _ .v
    case z => exact flag_bitTestPS s.ps s.a _ .z
    case others =>
      rintro f (rfl | rfl | rfl | rfl | rfl) <;> exact flag_bitTestPS_other _ _ _ (by decide) (by decide) (by decide)

end Sys2Proof.Proofs

/-! The statement about CLB and SEB (45_bit_and_flag.md R128, R129): the opcode with the bit number in its top three bits, and that either
instruction, on A or on a zero-page byte, leaves the byte that `bitOf_putBit` reads off. Clearing and setting differ in `b` alone. -/
namespace Sys2Proof.Proofs

open Sys2Proof.Machine

/-- A bit number above the five bits of an opcode column counts 0x20 each (30_encoding.md R53). -/
theorem bitOpcode_eq_ofNat (i : BitNumber) (k : BitVec 5) : bitOpcode i k = BitVec.ofNat 8 (0x20 * i.toNat + k.toNat) := by
  apply BitVec.eq_of_toNat_eq
  have appended : (bitOpcode i k).toNat = 0x20 * i.toNat + k.toNat := by
    rw [bitOpcode, BitVec.toNat_append, Nat.shiftLeft_eq, ← Nat.mul_comm (2 ^ 5), Nat.two_pow_add_eq_or_of_lt k.isLt]
  rw [BitVec.toNat_ofNat, ← appended, Nat.mod_eq_of_lt (bitOpcode i k).isLt]

section bitChange
variable (s : State) (i : BitNumber) (zz : Byte) (b : Bool)

theorem encode_bitChangeA :
    encode (if b then .sebA i else .clbA i) = [BitVec.ofNat 8 (0x20 * i.toNat + if b then 0x0B else 0x1B)] := by
  cases b with
  | false => exact congrArg (fun op => [op]) (bitOpcode_eq_ofNat i 0x1B#5)
  | true => exact congrArg (fun op => [op]) (bitOpcode_eq_ofNat i 0x0B#5)

theorem encode_bitChangeZp :
    encode (if b then .sebZp i zz else .clbZp i zz) = [BitVec.ofNat 8 (0x20 * i.toNat + if b then 0x0F else 0x1F), zz] := by
  cases b with
  | false => exact congrArg (fun op => [op, zz]) (bitOpcode_eq_ofNat i 0x1F#5)
  | true => exact congrArg (fun op => [op, zz]) (bitOpcode_eq_ofNat i 0x0F#5)

theorem cyclesOf_bitChangeA : cyclesOf (if b then .sebA i else .clbA i) s = 2 := by
  cases b <;> exact cyclesOf_eq_baseCycles rfl rfl

theorem cyclesOf_bitChangeZp : cyclesOf (if b then .sebZp i zz else .clbZp i zz) s = 5 := by
  cases b <;> exact cyclesOf_eq_baseCycles rfl rfl

/-- SEB and CLB on A are the accumulator form of one byte operation (R128, R129). -/
theorem exec_bitChangeA_eq_modifyA : exec (if b then .sebA i else .clbA i) s = modifyA (bitComputed i b) s := by
  cases b <;> rfl

/-- SEB and CLB on memory are the read-modify-write of the same byte operation (R128, R129). -/
theorem exec_bitChangeZp_eq_modifyMemory :
    exec (if b then .sebZp i zz else .clbZp i zz) s = modifyMemory 2 (bitComputed i b) (.zp zz) s := by
  cases b <;> rfl

theorem exec_bitChangeA :
    exec (if b then .sebA i else .clbA i) s = .next { s.advance 1 with a := putBit s.a i.toNat b } :=
  (exec_bitChangeA_eq_modifyA s i b).trans (modifyA_next.mpr rfl)

theorem exec_bitChangeZp : exec (if b then .sebZp i zz else .clbZp i zz) s =
    .next ((s.advance 2).busWrite (zeroPage zz) (putBit (s.busRead .data (zeroPage zz)) i.toNat b)) :=
  (exec_bitChangeZp_eq_modifyMemory s i zz b).trans
    (modifyMemory_next.mpr ⟨zeroPage zz, rfl, (busWrite_with_ps (s.advance 2) _ _).symm⟩)

end bitChange

/-- Settles O24: the encodings and cycles from their tables, then the byte each form leaves, bit by bit. -/
theorem bitChangeResult : Obligations.BitChangeResult := by
  intro s i zz b
  refine ⟨encode_bitChangeA i b, encode_bitChangeZp i zz b, cyclesOf_bitChangeA s i b, cyclesOf_bitChangeZp s i zz b, ?onA, ?onMemory⟩
  case onA => exact ⟨_, exec_bitChangeA s i b, fun k _ => bitOf_putBit s.a i.toNat k b i.isLt⟩
  case onMemory => exact ⟨_, exec_bitChangeZp s i zz b, fun k _ => bitOf_putBit _ i.toNat k b i.isLt⟩

end Sys2Proof.Proofs

/-! The statement about the nine flag instructions (45_bit_and_flag.md R130 to R138): each is `changeFlag` of its flag and value, and
`flag_putFlag` says what that leaves in every flag. -/
namespace Sys2Proof.Proofs

open Sys2Proof.Machine

/-- An instruction that makes one flag `b` moves PC past its one byte and leaves every other flag (10_state.md R15). -/
theorem flags_of_exec_eq_changeFlag {s : State} {i : Instr} {f : Flag} {b : Bool} (arm : exec i s = changeFlag f b s) :
    ∃ ps, exec i s = .next { s with pc := s.pc + 1#16, ps := ps } ∧ flag ps f = b ∧ ∀ g, g ≠ f → flag ps g = flag s.ps g := by
  refine ⟨putFlag s.ps f b, arm.trans (changeFlag_next.mpr rfl), ?named, ?others⟩
  case named => rw [flag_putFlag, if_pos rfl]
  case others =>
    intro g other
    rw [flag_putFlag, if_neg other]

/-- Settles O25, row by row of the table: the opcode and the cycles from their tables, the flags from the arm. -/
theorem flagInstructions : Obligations.FlagInstructions := by
  intro s i op f b row
  simp only [List.mem_cons, Prod.mk.injEq, List.not_mem_nil, or_false] at row
  rcases row with ⟨rfl, rfl, rfl, rfl⟩ | ⟨rfl, rfl, rfl, rfl⟩ | ⟨rfl, rfl, rfl, rfl⟩ | ⟨rfl, rfl, rfl, rfl⟩ | ⟨rfl, rfl, rfl, rfl⟩ |
    ⟨rfl, rfl, rfl, rfl⟩ | ⟨rfl, rfl, rfl, rfl⟩ | ⟨rfl, rfl, rfl, rfl⟩ | ⟨rfl, rfl, rfl, rfl⟩
  all_goals exact ⟨rfl, cyclesOf_eq_baseCycles rfl rfl, flags_of_exec_eq_changeFlag rfl⟩

end Sys2Proof.Proofs

/-! The statement about the two returns (46_jump_branch_return.md R153, R154): S after successive pulls, and what RTI and RTS leave in
terms of it. -/
namespace Sys2Proof.Proofs

open Sys2Proof.Machine

/-- S after two pulls (00_scope.md R5). -/
theorem add_one_twice (v : Byte) : v + 1#8 + 1#8 = v + 2#8 := BitVec.add_assoc v 1#8 1#8

/-- S after three pulls (00_scope.md R5). -/
theorem add_one_thrice (v : Byte) : v + 1#8 + 1#8 + 1#8 = v + 3#8 := by
  rw [add_one_twice]
  exact BitVec.add_assoc v 1#8 2#8

section returns
variable (s : State)

theorem exec_rti : exec .rti s = .next { s with
    sp := s.sp + 3#8, ps := s.busRead .pullFirst (s.stackAddress (s.sp + 1#8)),
    pc := concat (s.busRead .pullThird (s.stackAddress (s.sp + 3#8))) (s.busRead .pullSecond (s.stackAddress (s.sp + 2#8))) } := by
  rw [← add_one_twice, ← add_one_thrice]
  rfl

theorem exec_rts : exec .rts s = .next { s with
    sp := s.sp + 2#8,
    pc := concat (s.busRead .pullSecond (s.stackAddress (s.sp + 2#8))) (s.busRead .pullFirst (s.stackAddress (s.sp + 1#8))) +
      1#16 } := by
  rw [← add_one_twice]
  rfl

end returns

/-- Settles O30: the encodings and cycles from their tables, then what each return leaves by its pulls. -/
theorem returnResult : Obligations.ReturnResult := by
  intro s
  exact ⟨rfl, rfl, cyclesOf_eq_baseCycles rfl rfl, cyclesOf_eq_baseCycles rfl rfl, exec_rti s, exec_rts s⟩

end Sys2Proof.Proofs

/-! The statement about BRA and the flag branches (46_jump_branch_return.md R141, R145 to R152, R155): the target of a branch as a number,
the cycles of a branch taken or not, and the one shape `branchWhen` of the nine arms. -/
namespace Sys2Proof.Proofs

open Sys2Proof.Machine

/-- A branch goes to the address after the instruction plus the signed displacement, modulo 65536 (40_addressing_modes.md R70). -/
theorem branchTarget_toNat (pc : Word) (n : Nat) (rr : Byte) :
    ((branchTarget pc n rr).toNat : Int) = ((pc.toNat : Int) + n + rr.toInt) % 65536 := by
  have target : branchTarget pc n rr = BitVec.ofInt 16 ((pc.toNat : Int) + n + rr.toInt) := by
    rw [BitVec.ofInt_add, BitVec.ofInt_add, BitVec.ofInt_natCast, BitVec.ofInt_natCast, BitVec.ofNat_toNat, BitVec.setWidth_eq]
    rfl
  rw [target, BitVec.toNat_ofInt]
  exact Int.toNat_of_nonneg (Int.emod_nonneg _ (by decide))

/-- A branch that T does not lengthen needs 2 cycles more when it is taken (R203, R205). -/
theorem cyclesOf_branch {i : Instr} {s : State} {P : Prop} [Decidable P] (noExtra : extraCyclesT i = 0)
    (taken : takesBranch i s = decide P) : cyclesOf i s = if P then baseCycles i + 2 else baseCycles i := by
  simp only [cyclesOf, noExtra, taken, decide_eq_true_eq, ite_self, Nat.add_zero]
  split <;> rfl

/-- A two-byte branch, taken or not: only PC changes (R155). -/
theorem pc_of_exec_eq_branchWhen {i : Instr} {s : State} {rr : Byte} {taken : Bool} (arm : exec i s = branchWhen taken 2 rr s) :
    ∃ pc : Word, exec i s = .next { s with pc := pc } ∧ (taken = false → pc = s.pc + 2#16) ∧
      (taken = true → (pc.toNat : Int) = ((s.pc.toNat : Int) + 2 + rr.toInt) % 65536) := by
  refine ⟨_, arm.trans (branchWhen_next.mpr rfl), ?notTaken, ?taken⟩
  case notTaken =>
    rintro rfl
    rfl
  case taken =>
    rintro rfl
    exact branchTarget_toNat s.pc 2 rr

/-- Settles O28, row by row of the table: BRA always takes its 4 cycles, a flag branch 2 or 4; the target from the arm. -/
theorem branchResult : Obligations.BranchResult := by
  intro s rr i op taken row
  simp only [List.mem_cons, Prod.mk.injEq, List.not_mem_nil, or_false] at row
  obtain ⟨rfl, rfl, rfl⟩ | flagBranch := row
  · exact ⟨rfl, cyclesOf_eq_baseCycles rfl rfl, pc_of_exec_eq_branchWhen rfl⟩
  · rcases flagBranch with ⟨rfl, rfl, rfl⟩ | ⟨rfl, rfl, rfl⟩ | ⟨rfl, rfl, rfl⟩ | ⟨rfl, rfl, rfl⟩ | ⟨rfl, rfl, rfl⟩ | ⟨rfl, rfl, rfl⟩ |
      ⟨rfl, rfl, rfl⟩ | ⟨rfl, rfl, rfl⟩
    all_goals exact ⟨rfl, cyclesOf_branch rfl Bool.decide_eq_true.symm, pc_of_exec_eq_branchWhen rfl⟩

end Sys2Proof.Proofs

/-! The statement about BBC and BBS (46_jump_branch_return.md R143, R144): BBS takes its branch when the tested bit is 1 and BBC when it is
0, so they differ in `b` alone, and the branch taken decides the cycles and PC alike. Then which bit of memory is tested (R195). -/
namespace Sys2Proof.Proofs

open Sys2Proof.Machine

theorem branchWhen_decide (P : Prop) [Decidable P] (n : Nat) (rr : Byte) (s : State) : branchWhen (decide P) n rr s =
    .next { s with pc := if P then s.pc + BitVec.ofNat 16 n + rr.signExtend 16 else s.pc + BitVec.ofNat 16 n } :=
  branchWhen_next.mpr (by simp only [decide_eq_true_eq, branchTarget, sext16])

section bitBranch
variable (s : State) (i : BitNumber) (zz rr : Byte) (b : Bool)

theorem encode_bitBranchA :
    encode (if b then .bbsA i rr else .bbcA i rr) = [BitVec.ofNat 8 (0x20 * i.toNat + if b then 0x03 else 0x13), rr] := by
  cases b with
  | false => exact congrArg (fun op => [op, rr]) (bitOpcode_eq_ofNat i 0x13#5)
  | true => exact congrArg (fun op => [op, rr]) (bitOpcode_eq_ofNat i 0x03#5)

theorem encode_bitBranchZp : encode (if b then .bbsZp i zz rr else .bbcZp i zz rr) =
    [BitVec.ofNat 8 (0x20 * i.toNat + if b then 0x07 else 0x17), zz, rr] := by
  cases b with
  | false => exact congrArg (fun op => [op, zz, rr]) (bitOpcode_eq_ofNat i 0x17#5)
  | true => exact congrArg (fun op => [op, zz, rr]) (bitOpcode_eq_ofNat i 0x07#5)

theorem takesBranch_bitBranchA :
    takesBranch (if b then .bbsA i rr else .bbcA i rr) s = decide (bitOf s.a i.toNat = b) := by
  cases b with
  | false => exact Bool.decide_eq_false.symm
  | true => exact Bool.decide_eq_true.symm

theorem takesBranch_bitBranchZp :
    takesBranch (if b then .bbsZp i zz rr else .bbcZp i zz rr) s = decide (s.testedBit zz i = b) := by
  cases b with
  | false => exact Bool.decide_eq_false.symm
  | true => exact Bool.decide_eq_true.symm

theorem cyclesOf_bitBranchA :
    cyclesOf (if b then .bbsA i rr else .bbcA i rr) s = if bitOf s.a i.toNat = b then 6 else 4 := by
  have taken := takesBranch_bitBranchA s i rr b
  cases b <;> exact cyclesOf_branch rfl taken

theorem cyclesOf_bitBranchZp :
    cyclesOf (if b then .bbsZp i zz rr else .bbcZp i zz rr) s = if s.testedBit zz i = b then 7 else 5 := by
  have taken := takesBranch_bitBranchZp s i zz rr b
  cases b <;> exact cyclesOf_branch rfl taken

/-- The arms of BBC and BBS on A branch on the condition the cycle count asks for. -/
theorem exec_bitBranchA_eq_branchWhen : exec (if b then .bbsA i rr else .bbcA i rr) s =
    branchWhen (takesBranch (if b then .bbsA i rr else .bbcA i rr) s) 2 rr s := by
  cases b <;> rfl

/-- The arms of BBC and BBS on memory branch on the condition the cycle count asks for. -/
theorem exec_bitBranchZp_eq_branchWhen : exec (if b then .bbsZp i zz rr else .bbcZp i zz rr) s =
    branchWhen (takesBranch (if b then .bbsZp i zz rr else .bbcZp i zz rr) s) 3 rr s := by
  cases b <;> rfl

theorem exec_bitBranchA : exec (if b then .bbsA i rr else .bbcA i rr) s =
    .next { s with pc := if bitOf s.a i.toNat = b then s.pc + 2#16 + rr.signExtend 16 else s.pc + 2#16 } := by
  rw [exec_bitBranchA_eq_branchWhen, takesBranch_bitBranchA, branchWhen_decide]

theorem exec_bitBranchZp : exec (if b then .bbsZp i zz rr else .bbcZp i zz rr) s =
    .next { s with pc := if s.testedBit zz i = b then s.pc + 3#16 + rr.signExtend 16 else s.pc + 3#16 } := by
  rw [exec_bitBranchZp_eq_branchWhen, takesBranch_bitBranchZp, branchWhen_decide]

end bitBranch

/-- Where the previous instruction wrote no request register, none lags (70_reset_and_hazards.md R195). -/
theorem lagging_eq_none {s : State} (noLag : s.lag = []) (a : Word) : s.lagging a = none := by
  rw [State.lagging, noLag, List.find?_nil, Option.map_none]

/-- A bit that is no request bit, or that no write just touched, is tested as it reads (70_reset_and_hazards.md R195). -/
theorem testedBit_eq_bitOf_busRead {s : State} {zz : Byte} {i : BitNumber}
    (noLag : isRequestBit s.cfg (zeroPage zz) i.toNat = false ∨ s.lag = []) :
    s.testedBit zz i = bitOf (s.busRead .data (zeroPage zz)) i.toNat := by
  rw [State.testedBit]
  obtain notRequest | notWritten := noLag
  · rw [notRequest]
  · rw [lagging_eq_none notWritten]
    cases isRequestBit s.cfg (zeroPage zz) i.toNat <;> rfl

/-- Settles O29: the encodings from the opcode's top bits, the cycles and PC from the branch taken, and the bit tested. -/
theorem bitBranchResult : Obligations.BitBranchResult := by
  intro s i zz rr b
  exact ⟨encode_bitBranchA i rr b, encode_bitBranchZp i zz rr b, cyclesOf_bitBranchA s i rr b, cyclesOf_bitBranchZp s i zz rr b,
    exec_bitBranchA s i rr b, exec_bitBranchZp s i zz rr b, testedBit_eq_bitOf_busRead⟩

end Sys2Proof.Proofs

/-! The statement about a store that clears a request bit with the enable bit of the same register 1 (60_exceptions.md R188,
70_reset_and_hazards.md R196). No instruction changes the product, so the sources forced by the store are sources of the state after it;
one of them is accepted where I = 0, whatever its request bit is then. -/
namespace Sys2Proof.Proofs

open Sys2Proof.Machine

/-- No instruction changes the product (00_scope.md R3): by the shape of its meaning, each arm keeps it. -/
theorem exec_cfg {i : Instr} {s t : State} (h : exec i s = .next t) : t.cfg = s.cfg := by
  cases i with dsimp only [exec] at h
  | ldaIndX | ldaZp | ldaImm | ldaAbs | ldaIndY | ldaZpX | ldaAbsY | ldaAbsX =>
    obtain ⟨_, -, rfl⟩ := loadDestination_next.mp h
    exact dstWrite_cfg _ _
  | oraIndX | oraZp | oraImm | oraAbs | oraIndY | oraZpX | oraAbsY | oraAbsX | andIndX | andZp | andImm | andAbs | andIndY
  | andZpX | andAbsY | andAbsX | eorIndX | eorZp | eorImm | eorAbs | eorIndY | eorZpX | eorAbsY | eorAbsX | adcIndX | adcZp
  | adcImm | adcAbs | adcIndY | adcZpX | adcAbsY | adcAbsX | sbcIndX | sbcZp | sbcImm | sbcAbs | sbcIndY | sbcZpX | sbcAbsY
  | sbcAbsX =>
    obtain ⟨_, -, rfl⟩ := accumulate_next.mp h
    exact dstWrite_cfg _ _
  | cmpIndX | cmpZp | cmpImm | cmpAbs | cmpIndY | cmpZpX | cmpAbsY | cmpAbsX =>
    obtain ⟨_, -, rfl⟩ := compareDestination_next.mp h
    rfl
  | cpyImm | cpyZp | cpyAbs | cpxImm | cpxZp | cpxAbs =>
    obtain ⟨_, -, rfl⟩ := compareRegister_next.mp h
    rfl
  | ldxImm | ldxZp | ldxAbs | ldxZpY | ldxAbsY =>
    obtain ⟨_, -, rfl⟩ := loadX_next.mp h
    rfl
  | ldyImm | ldyZp | ldyAbs | ldyZpX | ldyAbsX =>
    obtain ⟨_, -, rfl⟩ := loadY_next.mp h
    rfl
  | bitZp | bitAbs | tstZp =>
    obtain ⟨_, -, rfl⟩ := testMemory_next.mp h
    rfl
  | ldm | staIndX | styZp | staZp | stxZp | styAbs | staAbs | stxAbs | staIndY | styZpX | staZpX | stxZpY | staAbsY | staAbsX =>
    obtain ⟨_, -, rfl⟩ := store_next.mp h
    exact busWrite_cfg _ _ _
  | aslZp | aslAbs | sebZp | aslZpX | aslAbsX | clbZp | rolZp | rolAbs | rolZpX | rolAbsX | comZp | lsrZp | lsrAbs | lsrZpX
  | lsrAbsX | rorZp | rorAbs | rorZpX | rorAbsX | rrfZp | decZp | decAbs | decZpX | decAbsX | incZp | incAbs | incZpX | incAbsX =>
    obtain ⟨_, -, rfl⟩ := modifyMemory_next.mp h
    exact busWrite_cfg _ _ _
  | aslA | sebA | decA | clbA | rolA | incA | lsrA | rorA =>
    obtain rfl := modifyA_next.mp h
    rfl
  | clt | clc | set | sec | cli | sei | clv | cld | sed =>
    obtain rfl := changeFlag_next.mp h
    rfl
  | bbsA | bbsZp | bpl | bbcA | bbcZp | bmi | bvc | bvs | bra | bcc | bcs | bne | beq =>
    obtain rfl := branchWhen_next.mp h
    rfl
  | jsrZpInd | jsrAbs | jsrSp =>
    obtain ⟨_, -, rfl⟩ := callSubroutine_next.mp h
    exact (push_cfg _ _).trans (push_cfg _ _)
  | jmpInd | jmpZpInd =>
    obtain ⟨_, -, rfl⟩ := proceed_next.mp h
    rfl
  | mulZpX =>
    obtain ⟨-, multiplied⟩ := whenPresent_next.mp h
    obtain rfl := multiply_next.mp multiplied
    exact push_cfg _ _
  | divZpX =>
    obtain ⟨-, divided⟩ := whenPresent_next.mp h
    obtain ⟨_, _, rfl⟩ := divide_next divided
    exact push_cfg _ _
  | wit =>
    obtain ⟨-, waits⟩ := whenPresent_next.mp h
    cases waits
    rfl
  | stp =>
    cases h
    split <;> rfl
  | pha | php =>
    cases h
    exact push_cfg _ _
  | brk =>
    cases h
    exact enterException_cfg _ _ _ _ _
  | plp | rti | jmpAbs | rts | pla | dey | txa | tya | txs | tay | tax | tsx | iny | dex | inx | nop =>
    cases h
    rfl

/-- What the store between two states forces: the sources of which it cleared the request bit and left the enable bit, in the same
register, 1 (60_exceptions.md R188). -/
theorem mem_forcedAfter {s t : State} {q : IrqSource} :
    q ∈ forcedAfter s t ↔ q ∈ s.cfg.irqSources ∧ q.requestAddress = q.enableAddress ∧ s.requested q = true ∧
      t.requested q = false ∧ t.enabled q = true := by
  simp [forcedAfter, and_assoc]

/-- With I = 0 a forced source is accepted, its request bit no longer asked for (60_exceptions.md R188). -/
theorem accepts_of_mem_forced {s : State} {q : IrqSource} (unmasked : flag s.ps .i = false) (forced : q ∈ s.forced) :
    s.accepts q = true := by
  simp [State.accepts, unmasked, forced]

/-- Where a source of the product is accepted, some source is acceptable: that one or one before it (60_exceptions.md R175). -/
theorem acceptable_ne_none {s : State} {among : IrqSource → Bool} {q : IrqSource} (source : q ∈ s.cfg.irqSources)
    (admitted : among q = true) (accepted : s.accepts q = true) : s.acceptable among ≠ none := by
  intro noneAcceptable
  have refused : s.accepts q = false := acceptable_none noneAcceptable q source admitted
  exact Bool.false_ne_true (refused.symm.trans accepted)

/-- Settles O54: the finished state holds the source as a forced one, and the product still has it. -/
theorem forcedAcceptance : Obligations.ForcedAcceptance := by
  intro s t i q executed source oneRegister wasRequested cleared enabled unmasked
  have forced : q ∈ (s.finish i t).forced := mem_forcedAfter.mpr ⟨source, oneRegister, wasRequested, cleared, enabled⟩
  have kept : q ∈ (s.finish i t).cfg.irqSources := (exec_cfg executed).symm ▸ source
  have accepted : (s.finish i t).accepts q = true := accepts_of_mem_forced unmasked forced
  exact ⟨accepted, acceptable_ne_none kept rfl accepted⟩

end Sys2Proof.Proofs

/-! The statement about the cycle counts (70_reset_and_hazards.md R203 to R205): the base cycles and the adder for T of each form of a
mnemonic, read off its mode, and the 2 cycles more of a branch by the flag or bit that it tests. -/
namespace Sys2Proof.Proofs

open Sys2Proof.Machine Sys2Proof.Claims

/-- An instruction that takes no branch needs its base cycles and, where T = 1, its adder (R203, R204). -/
theorem cyclesOf_of_noBranch {i : Instr} {s : State} (noBranch : takesBranch i s = false) :
    cyclesOf i s = baseCycles i + if flag s.ps .t then extraCyclesT i else 0 := by
  rw [cyclesOf, noBranch, if_neg Bool.false_ne_true, Nat.add_zero]

section forms
variable {s : State} {o : Operand} {m : MemMode} {i : Instr} {n : Nat}

/-- The reading mnemonics with the adder of each for T = 1 (R204): every form needs the cycles of its mode (R203). -/
theorem cyclesOf_of_readForm {form : Operand → Option Instr}
    (row : (form, n) ∈ [(adcForm, 3), (sbcForm, 3), (andForm, 3), (oraForm, 3), (eorForm, 3), (ldaForm, 2), (cmpForm, 1), (ldxForm, 0),
      (ldyForm, 0), (cpxForm, 0), (cpyForm, 0)]) (h : form o = some i) :
    cyclesOf i s = readCycles o + if flag s.ps .t then n else 0 := by
  simp only [List.mem_cons, Prod.mk.injEq, List.not_mem_nil, or_false] at row
  rcases row with ⟨rfl, rfl⟩ | ⟨rfl, rfl⟩ | ⟨rfl, rfl⟩ | ⟨rfl, rfl⟩ | ⟨rfl, rfl⟩ | ⟨rfl, rfl⟩ | ⟨rfl, rfl⟩ | ⟨rfl, rfl⟩ | ⟨rfl, rfl⟩ |
    ⟨rfl, rfl⟩ | ⟨rfl, rfl⟩
  all_goals
    cases o with
    | imm =>
      cases h
      exact cyclesOf_of_noBranch rfl
    | mem m => cases m <;> cases h <;> exact cyclesOf_of_noBranch rfl

/-- A reading mnemonic that T does not lengthen needs the cycles of its mode alone (R203). -/
theorem cyclesOf_of_plainReadForm (h : ldxForm o = some i ∨ ldyForm o = some i ∨ cpxForm o = some i ∨ cpyForm o = some i) :
    cyclesOf i s = readCycles o := by
  rw [← Nat.add_zero (readCycles o), ← ite_self (c := flag s.ps .t = true) 0]
  rcases h with form | form | form | form <;> exact cyclesOf_of_readForm (by simp) form

/-- The other mnemonics with a memory mode: BIT reads, a store needs 1 cycle more than a read, a read-modify-write 2 more (R203). -/
theorem cyclesOf_of_memoryForm {form : MemMode → Option Instr}
    (row : (form, n) ∈ [(bitForm, 0), (staForm, 1), (stxForm, 1), (styForm, 1), (aslForm, 2), (lsrForm, 2), (rolForm, 2), (rorForm, 2),
      (incForm, 2), (decForm, 2)]) (h : form m = some i) :
    cyclesOf i s = readCycles (.mem m) + n := by
  simp only [List.mem_cons, Prod.mk.injEq, List.not_mem_nil, or_false] at row
  rcases row with ⟨rfl, rfl⟩ | ⟨rfl, rfl⟩ | ⟨rfl, rfl⟩ | ⟨rfl, rfl⟩ | ⟨rfl, rfl⟩ | ⟨rfl, rfl⟩ | ⟨rfl, rfl⟩ | ⟨rfl, rfl⟩ | ⟨rfl, rfl⟩ |
    ⟨rfl, rfl⟩
  all_goals cases m <;> cases h <;> exact cyclesOf_eq_baseCycles rfl rfl

/-- An instruction of which the operand does not matter to the time: `make` builds it from its operand. -/
theorem cyclesOf_of_exists_operand {α : Type} {make : α → Instr} (base : ∀ a, baseCycles (make a) = n)
    (noExtra : ∀ a, extraCyclesT (make a) = 0) (noBranch : ∀ a, takesBranch (make a) s = false) :
    (∃ a, i = make a) → cyclesOf i s = n := by
  rintro ⟨a, rfl⟩
  rw [cyclesOf_eq_baseCycles (noExtra a) (noBranch a), base a]

end forms

section branches
variable {s : State} {i : Instr} {tested : Bool}

/-- A branch on the tested bit 1 (R203, R205). -/
theorem cyclesOf_branchIf (noExtra : extraCyclesT i = 0) (taken : takesBranch i s = tested) :
    cyclesOf i s = if tested then baseCycles i + 2 else baseCycles i :=
  cyclesOf_branch noExtra (taken.trans Bool.decide_eq_true.symm)

/-- A branch on the tested bit 0 (R203, R205). -/
theorem cyclesOf_branchUnless (noExtra : extraCyclesT i = 0) (taken : takesBranch i s = !tested) :
    cyclesOf i s = if tested then baseCycles i else baseCycles i + 2 := by
  rw [cyclesOf_branchIf noExtra taken]
  cases tested <;> rfl

/-- BRA always takes its 4 cycles, a branch on a flag 2, or 4 when it is taken (R203, R205). -/
theorem cyclesOf_flagBranches (s : State) (r : Byte) :
    cyclesOf (.bra r) s = 4 ∧ cyclesOf (.bcc r) s = (if flag s.ps .c then 2 else 4) ∧
    cyclesOf (.bcs r) s = (if flag s.ps .c then 4 else 2) ∧ cyclesOf (.bne r) s = (if flag s.ps .z then 2 else 4) ∧
    cyclesOf (.beq r) s = (if flag s.ps .z then 4 else 2) ∧ cyclesOf (.bpl r) s = (if flag s.ps .n then 2 else 4) ∧
    cyclesOf (.bmi r) s = (if flag s.ps .n then 4 else 2) ∧ cyclesOf (.bvc r) s = (if flag s.ps .v then 2 else 4) ∧
    cyclesOf (.bvs r) s = (if flag s.ps .v then 4 else 2) :=
  ⟨cyclesOf_eq_baseCycles rfl rfl, cyclesOf_branchUnless rfl rfl, cyclesOf_branchIf rfl rfl, cyclesOf_branchUnless rfl rfl,
    cyclesOf_branchIf rfl rfl, cyclesOf_branchUnless rfl rfl, cyclesOf_branchIf rfl rfl, cyclesOf_branchUnless rfl rfl,
    cyclesOf_branchIf rfl rfl⟩

end branches

/-- The one-byte instructions of 2 cycles that have no operand and are not on A (R203). -/
theorem cyclesOf_implied {s : State} {i : Instr}
    (implied : i ∈ [.clc, .cld, .cli, .clt, .clv, .sec, .sed, .sei, .set, .dex, .dey, .inx, .iny, .tax, .tay, .tsx, .txa, .txs, .tya,
      .nop, .wit, .stp]) : cyclesOf i s = 2 := by
  fin_cases implied <;> exact cyclesOf_eq_baseCycles rfl rfl

/-- Settles O55, group by group: the forms by the cycles of their mode, the branches by what they test, the others by their row. -/
theorem cycleCounts : Obligations.CycleCounts := by
  intro s o m i
  refine ⟨?addedThree, cyclesOf_of_readForm (by simp), cyclesOf_of_readForm (by simp), cyclesOf_of_plainReadForm,
    cyclesOf_of_memoryForm (form := bitForm) (n := 0) (by simp), ?stores, ?readModifyWrites,
    ?jmpAbs, ?jmpInd, ?jmpZpInd, ?jsrAbs, ?jsrSp, ?jsrZpInd, ?ldm, ?mul, ?div, ?rrf, ?com, ?tst,
    cyclesOf_implied, cyclesOf_flagBranches s, ?brk, ?returns, ?pushes, ?pulls, ?bitsOfMemory, ?bitsOfA, ?onA, ?bitBranchesA,
    ?bitBranchesZp⟩
  case addedThree => rintro (form | form | form | form | form) <;> exact cyclesOf_of_readForm (by simp) form
  case stores => rintro (form | form | form) <;> exact cyclesOf_of_memoryForm (by simp) form
  case readModifyWrites =>
    rintro (form | form | form | form | form | form) <;> exact cyclesOf_of_memoryForm (by simp) form
  case ldm =>
    rintro ⟨_, _, rfl⟩
    exact cyclesOf_eq_baseCycles rfl rfl
  case brk =>
    rintro rfl
    exact cyclesOf_eq_baseCycles rfl rfl
  case returns | pushes | pulls => rintro (rfl | rfl) <;> exact cyclesOf_eq_baseCycles rfl rfl
  case bitsOfMemory => rintro ⟨_, _, rfl | rfl⟩ <;> exact cyclesOf_eq_baseCycles rfl rfl
  case bitsOfA => rintro ⟨_, rfl | rfl⟩ <;> exact cyclesOf_eq_baseCycles rfl rfl
  case onA => rintro (rfl | rfl | rfl | rfl | rfl | rfl) <;> exact cyclesOf_eq_baseCycles rfl rfl
  case bitBranchesA => exact fun _ _ => ⟨cyclesOf_branchUnless rfl rfl, cyclesOf_branchIf rfl rfl⟩
  case bitBranchesZp => exact fun _ _ _ => ⟨cyclesOf_branchUnless rfl rfl, cyclesOf_branchIf rfl rfl⟩
  case jmpAbs | jmpInd | jmpZpInd | jsrAbs | jsrSp | jsrZpInd | mul | div | rrf | com | tst =>
    exact cyclesOf_of_exists_operand (fun _ => rfl) (fun _ => rfl) (fun _ => rfl)

end Sys2Proof.Proofs

/-! The statements about the encoding (30_encoding.md R50 to R55). The opcode map and the encoding say the same of an opcode and two
bytes after it: as many of the three as the instruction is long are its encoding. Lists of bytes then only add the rest. -/
namespace Sys2Proof.Proofs

open Sys2Proof.Machine

/-- Whether the encoding determines the instruction: all of them, but for `JSR ¥$hhll` with an upper byte it has no room for (R75). -/
def Encodable (i : Instr) : Prop := ∀ w, i = .jsrSp w → highByte w = 0xFF#8

theorem encodable_of_wellFormed {i : Instr} (h : i.wellFormed = true ∨ ∃ hh : Byte, i = .jmpInd (concat hh 0xFF#8)) : Encodable i := by
  rintro w rfl
  obtain wf | ⟨hh, ⟨⟩⟩ := h
  exact beq_iff_eq.mp wf

/-- An instruction has one, two or three bytes (R50). -/
theorem length_bounds (i : Instr) : 1 ≤ i.length ∧ i.length ≤ 3 := by
  cases i <;> exact ⟨Nat.le_of_ble_eq_true rfl, Nat.le_of_ble_eq_true rfl⟩

/-- In a bit instruction the opcode map reads the column from the lower five bits and the bit number from the upper three (R53). -/
theorem decodeOpcode_bitOpcode (k : BitNumber) (lo : BitVec 5) (b1 b2 : Byte) :
    decodeOpcode (bitOpcode k lo) b1 b2 = decodeColumns lo k b1 b2 := by
  have low : (bitOpcode k lo).extractLsb' 0 5 = lo := by
    revert k lo; decide
  have high : (bitOpcode k lo).extractLsb' 5 3 = k := by
    revert k lo; decide
  rw [decodeOpcode, low, high]

theorem bitOpcode_extractLsb' (op : Byte) : bitOpcode (op.extractLsb' 5 3) (op.extractLsb' 0 5) = op := by
  revert op; decide

/-- The opcode map reads an instruction back from its bytes (R52). -/
theorem decodeOpcode_of_take_eq_encode {i : Instr} {op b1 b2 : Byte} (encodable : Encodable i)
    (bytes : [op, b1, b2].take i.length = encode i) : decodeOpcode op b1 b2 = some i := by
  cases i with
  | bbsA | bbsZp | sebA | sebZp | bbcA | bbcZp | clbA | clbZp =>
    cases bytes
    exact decodeOpcode_bitOpcode ..
  | jsrSp w =>
    cases bytes
    conv_rhs => rw [← concat_highByte_lowByte w, encodable w rfl]
    rfl
  | oraAbs w | aslAbs w | oraAbsY w | oraAbsX w | aslAbsX w | jsrAbs w | bitAbs w | andAbs w | rolAbs w | andAbsY w | andAbsX w
  | rolAbsX w | jmpAbs w | eorAbs w | lsrAbs w | eorAbsY w | eorAbsX w | lsrAbsX w | jmpInd w | adcAbs w | rorAbs w | adcAbsY w
  | adcAbsX w | rorAbsX w | styAbs w | staAbs w | stxAbs w | staAbsY w | staAbsX w | ldyAbs w | ldaAbs w | ldxAbs w | ldaAbsY w
  | ldyAbsX w | ldaAbsX w | ldxAbsY w | cpyAbs w | cmpAbs w | decAbs w | cmpAbsY w | cmpAbsX w | decAbsX w | cpxAbs w | sbcAbs w
  | incAbs w | sbcAbsY w | sbcAbsX w | incAbsX w =>
    cases bytes
    conv_rhs => rw [← concat_highByte_lowByte w]
    rfl
  | _ =>
    cases bytes
    rfl

/-- The columns of the opcode map (R52). -/
theorem column_cases : ∀ lo : BitVec 5, lo = 0 ∨ lo = 1 ∨ lo = 2 ∨ lo = 3 ∨ lo = 4 ∨ lo = 5 ∨ lo = 6 ∨ lo = 7 ∨ lo = 8 ∨ lo = 9 ∨ lo = 10 ∨
    lo = 11 ∨ lo = 12 ∨ lo = 13 ∨ lo = 14 ∨ lo = 15 ∨ lo = 16 ∨ lo = 17 ∨ lo = 18 ∨ lo = 19 ∨ lo = 20 ∨ lo = 21 ∨ lo = 22 ∨ lo = 23 ∨
    lo = 24 ∨ lo = 25 ∨ lo = 26 ∨ lo = 27 ∨ lo = 28 ∨ lo = 29 ∨ lo = 30 ∨ lo = 31 := by decide

section columns
variable {lo : BitVec 5} {hi : BitNumber} {op b1 b2 : Byte} {i : Instr}

/-- What a column of the opcode map gives has the bytes it was read from, as many as the table of lengths says (R52, R55). -/
theorem encode_of_decodeColumns (h : decodeColumns lo hi b1 b2 = some i) :
    encode i = [bitOpcode hi lo, b1, b2].take i.length ∧ i.length = opcodeLength (bitOpcode hi lo) := by
  rcases column_cases lo with rfl | rfl | rfl | rfl | rfl | rfl | rfl | rfl | rfl | rfl | rfl | rfl | rfl | rfl | rfl | rfl | rfl | rfl |
    rfl | rfl | rfl | rfl | rfl | rfl | rfl | rfl | rfl | rfl | rfl | rfl | rfl | rfl
  all_goals rcases bitNumber_cases hi with rfl | rfl | rfl | rfl | rfl | rfl | rfl | rfl
  all_goals
    cases h <;> exact ⟨by simp [encode, Instr.length, bitOpcode], rfl⟩

/-- The special page form of JSR is read with the upper byte 0xFF (R75). -/
theorem special_of_decodeColumns {w : Word} (h : decodeColumns lo hi b1 b2 = some (.jsrSp w)) : w = concat 0xFF#8 b1 := by
  rcases column_cases lo with rfl | rfl | rfl | rfl | rfl | rfl | rfl | rfl | rfl | rfl | rfl | rfl | rfl | rfl | rfl | rfl | rfl | rfl |
    rfl | rfl | rfl | rfl | rfl | rfl | rfl | rfl | rfl | rfl | rfl | rfl | rfl | rfl
  all_goals rcases bitNumber_cases hi with rfl | rfl | rfl | rfl | rfl | rfl | rfl | rfl
  all_goals cases h <;> rfl

/-- What the opcode map gives has the bytes it was read from (R52). -/
theorem encode_of_decodeOpcode (h : decodeOpcode op b1 b2 = some i) : encode i = [op, b1, b2].take i.length := by
  rw [(encode_of_decodeColumns h).1, bitOpcode_extractLsb']

/-- What the opcode map gives is well formed, but for the forbidden JMP (R56, R197). -/
theorem wellFormed_of_decodeOpcode (h : decodeOpcode op b1 b2 = some i) :
    i.wellFormed = true ∨ ∃ hh : Byte, i = .jmpInd (concat hh 0xFF#8) := by
  cases i with
  | jsrSp w => exact .inl (by rw [special_of_decodeColumns h, Instr.wellFormed, highByte_concat, beq_self_eq_true])
  | jmpInd w =>
    by_cases pageEnd : lowByte w = 0xFF#8
    · exact .inr ⟨highByte w, by rw [← pageEnd, concat_highByte_lowByte]⟩
    · exact .inl (bne_iff_ne.mpr pageEnd)
  | _ => exact .inl rfl

end columns

/-- Settles O42, column by column of the opcode map. -/
theorem lengthByOpcode : Obligations.LengthByOpcode := by
  intro op b1 b2 i decoded
  rw [(encode_of_decodeColumns decoded).2, bitOpcode_extractLsb']

/-- When a list of bytes decodes: the opcode has an instruction, and its operand bytes are there (R50). -/
theorem decode_cons_eq_ok_iff {op : Byte} {tail rest : List Byte} {i : Instr} :
    decode (op :: tail) = .ok (i, rest) ↔
      decodeOpcode op (tail.getD 0 0) (tail.getD 1 0) = some i ∧ i.length ≤ tail.length + 1 ∧ tail.drop (i.length - 1) = rest := by
  rw [decode]
  cases decodeOpcode op (tail.getD 0 0x00#8) (tail.getD 1 0x00#8) with
  | none => simp
  | some j =>
    by_cases enough : j.length ≤ tail.length + 1
    · simp only [enough, if_true, Except.ok.injEq, Prod.mk.injEq, Option.some.injEq]
      constructor
      · rintro ⟨rfl, rfl⟩
        exact ⟨rfl, enough, rfl⟩
      · rintro ⟨rfl, -, rfl⟩
        exact ⟨rfl, rfl⟩
    · simp only [enough, if_false, reduceCtorEq, Option.some.injEq, false_iff]
      rintro ⟨rfl, h, -⟩
      exact enough h

/-- Up to three bytes of a long enough list are its first and the two that the decoder looks at. -/
theorem take_three_eq_take {n : Nat} (op : Byte) (tail : List Byte) (short : n ≤ 3) (enough : n ≤ tail.length + 1) :
    [op, tail.getD 0 0, tail.getD 1 0].take n = (op :: tail).take n := by
  match n, tail, short, enough with
  | 0, _, _, _ | 1, _, _, _ | 2, _ :: _, _, _ | 3, _ :: _ :: _, _, _ => rfl
  | 2, [], _, h | 3, [], _, h | 3, [_], _, h => simp at h

/-- Decoding the bytes of an instruction gives it back, whatever follows (R50). -/
theorem decode_encode {i : Instr} (encodable : Encodable i) (rest : List Byte) : decode (encode i ++ rest) = .ok (i, rest) := by
  obtain ⟨positive, short⟩ := length_bounds i
  obtain ⟨op, operands, bytes⟩ := List.exists_cons_of_length_pos positive
  have size : i.length = operands.length + 1 := by rw [Instr.length, bytes, List.length_cons]
  have enough : i.length ≤ (operands ++ rest).length + 1 := by
    rw [size, List.length_append]
    omega
  rw [bytes, List.cons_append, decode_cons_eq_ok_iff]
  refine ⟨decodeOpcode_of_take_eq_encode encodable ?opcode, enough, ?rest⟩
  case opcode => rw [take_three_eq_take op _ short enough, ← List.cons_append, ← bytes]; exact List.take_left
  case rest => rw [size]; exact List.drop_left

/-- Settles O39: a well-formed instruction is one that its encoding determines. -/
theorem decodeEncode : Obligations.DecodeEncode := fun _ rest wf => decode_encode (encodable_of_wellFormed (.inl wf)) rest

/-- Settles O40: the first bytes of the list are those the opcode map looks at, and the rest is what it leaves. -/
theorem encodeDecode : Obligations.EncodeDecode := by
  intro bs rest i decoded
  match bs with
  | [] => cases decoded
  | op :: tail =>
    obtain ⟨opcode, enough, rfl⟩ := decode_cons_eq_ok_iff.mp decoded
    obtain ⟨positive, short⟩ := length_bounds i
    refine ⟨?bytes, wellFormed_of_decodeOpcode opcode⟩
    have dropped : tail.drop (i.length - 1) = (op :: tail).drop i.length := by
      rw [← Nat.succ_pred_eq_of_pos positive]; rfl
    rw [encode_of_decodeOpcode opcode, take_three_eq_take op tail short enough, dropped, List.take_append_drop]

/-- Settles O43: each example is the encoding of its instruction. -/
theorem sampleWords : Obligations.SampleWords := ⟨rfl, rfl, rfl, rfl, rfl, rfl, rfl, rfl, rfl, rfl, rfl⟩

end Sys2Proof.Proofs

/-! What an instruction leaves, said once: which registers and flags it may change, and that all it does to memory and ports is the writes
at the addresses `storedAddresses` lists. The frames and the invariants of the whole machine follow from it. -/
namespace Sys2Proof.Proofs

open Sys2Proof.Machine Sys2Proof.Claims

/-- Two states that the bus cannot tell apart: the same product, bytes, ports, noted bytes and free values. -/
structure SameBus (s t : State) : Prop where
  cfg : t.cfg = s.cfg
  mem : t.mem = s.mem
  ports : t.ports = s.ports
  overwritten : t.overwritten = s.overwritten
  draws : t.draws = s.draws

section bus
variable {s t u : State}

theorem SameBus.refl (s : State) : SameBus s s := ⟨rfl, rfl, rfl, rfl, rfl⟩

theorem SameBus.trans (h : SameBus s t) (g : SameBus t u) : SameBus s u :=
  ⟨g.cfg.trans h.cfg, g.mem.trans h.mem, g.ports.trans h.ports, g.overwritten.trans h.overwritten, g.draws.trans h.draws⟩

/-- A write does the same to the bus whatever the registers hold (20_memory.md R37). -/
theorem SameBus.busWrite (h : SameBus s t) (ea : Word) (v : Byte) : SameBus (s.busWrite ea v) (t.busWrite ea v) := by
  cases s
  cases t
  obtain ⟨rfl, rfl, rfl, rfl, rfl⟩ := h
  unfold State.busWrite
  dsimp only
  split <;> exact ⟨rfl, rfl, rfl, rfl, rfl⟩

/-- A write changes no register (10_state.md R11 to R14). -/
theorem busWrite_keeps (s : State) (ea : Word) (v : Byte) :
    ∃ mem ports overwritten, s.busWrite ea v = { s with mem := mem, ports := ports, overwritten := overwritten } := by
  unfold State.busWrite
  dsimp only
  split <;> exact ⟨_, _, _, rfl⟩

/-- The state after these writes, the first first. -/
def storeAll (s : State) : List (Word × Byte) → State
  | [] => s
  | (ea, v) :: writes => storeAll (s.busWrite ea v) writes

theorem SameBus.storeAll (h : SameBus s t) (writes : List (Word × Byte)) : SameBus (storeAll s writes) (storeAll t writes) := by
  induction writes generalizing s t with
  | nil => exact h
  | cons w writes ih => exact ih (h.busWrite w.1 w.2)

/-- A stack address depends on the product and the stored bytes alone (10_state.md R13). -/
theorem stackAddress_congr (cfg : t.cfg = s.cfg) (mem : t.mem = s.mem) (v : Byte) : t.stackAddress v = s.stackAddress v := by
  rw [State.stackAddress, State.stackAddress, State.stackPage, State.stackPage, cfg, mem]

/-- To the bus a push is the write at the address S indicates (00_scope.md R5). -/
theorem SameBus.push (h : SameBus s t) (sp : t.sp = s.sp) (v : Byte) : SameBus (s.busWrite (s.stackAddress s.sp) v) (t.push v) := by
  rw [State.push, sp, stackAddress_congr h.cfg h.mem]
  obtain ⟨cfg, mem, ports, overwritten, draws⟩ := h.busWrite (s.stackAddress s.sp) v
  exact ⟨cfg, mem, ports, overwritten, draws⟩

/-- The state after pushes of these bytes, the first first. -/
def pushAll (s : State) : List Byte → State
  | [] => s
  | v :: bytes => pushAll (s.push v) bytes

/-- To the bus pushes are writes at the addresses `pushAddresses` lists. -/
theorem pushAll_stores (h : SameBus s t) (sp : t.sp = s.sp) (bytes : List Byte) :
    ∃ writes, writes.map Prod.fst = pushAddresses s bytes ∧ SameBus (storeAll s writes) (pushAll t bytes) := by
  induction bytes generalizing s t with
  | nil => exact ⟨[], rfl, h⟩
  | cons v bytes ih =>
    have written : SameBus (s.busWrite (s.stackAddress s.sp) v) (s.push v) := (SameBus.refl s).push rfl v
    have pushed : SameBus (s.push v) (t.push v) := by
      obtain ⟨cfg, mem, ports, overwritten, draws⟩ := h.push sp v
      exact ⟨cfg, mem, ports, overwritten, draws⟩
    obtain ⟨writes, addresses, rest⟩ := ih pushed (by simp [sp])
    exact ⟨(s.stackAddress s.sp, v) :: writes, congrArg _ addresses, (written.storeAll writes).trans rest⟩

/-- Pushes change no register but S. -/
theorem pushAll_keeps (s : State) (bytes : List Byte) : ∃ sp mem ports overwritten,
    pushAll s bytes = { s with sp := sp, mem := mem, ports := ports, overwritten := overwritten } := by
  induction bytes generalizing s with
  | nil => exact ⟨_, _, _, _, rfl⟩
  | cons v bytes ih =>
    obtain ⟨_, _, _, written⟩ := busWrite_keeps s (s.stackAddress s.sp) v
    obtain ⟨_, _, _, _, pushed⟩ := ih (s.push v)
    rw [pushAll, pushed, State.push, written]
    exact ⟨_, _, _, _, rfl⟩

end bus

/-- What an instruction executed in `s` with the next state `t` leaves alone, by the tables of 10_state.md R11 to R13 and R24, and that
its writes are at the addresses it stores to. -/
structure Effect (i : Instr) (s t : State) : Prop where
  a : writesA i s = false → t.a = s.a
  x : writesX i = false → t.x = s.x
  y : writesY i = false → t.y = s.y
  sp : writesS i = false → t.sp = s.sp
  run : i ≠ .wit → i ≠ .stp → t.run = s.run
  outside : t.outside = s.outside
  hazard : t.hazard = s.hazard
  lag : t.lag = s.lag
  forced : t.forced = s.forced
  cycles : t.cycles = s.cycles
  flags : ∀ f, writesFlag i f = false → flag t.ps f = flag s.ps f
  stores : ∃ writes, writes.map Prod.fst = storedAddresses i s ∧ SameBus (storeAll s writes) t

section shapes
variable {i : Instr} {s t : State} {n : Nat} {v ps : Byte}

/-- An instruction that changes registers and flags only. -/
theorem effect_of_registers (keeps : t = { s with a := t.a, x := t.x, y := t.y, sp := t.sp, ps := t.ps, pc := t.pc, run := t.run })
    (stored : storedAddresses i s = []) (a : writesA i s = false → t.a = s.a) (x : writesX i = false → t.x = s.x)
    (y : writesY i = false → t.y = s.y) (sp : writesS i = false → t.sp = s.sp) (run : i ≠ .wit → i ≠ .stp → t.run = s.run)
    (flags : ∀ f, writesFlag i f = false → flag t.ps f = flag s.ps f) : Effect i s t := by
  rw [keeps]
  exact { a, x, y, sp, run, flags, outside := rfl, hazard := rfl, lag := rfl, forced := rfl, cycles := rfl,
          stores := ⟨[], stored.symm, rfl, rfl, rfl, rfl, rfl⟩ }

/-- An instruction that moves PC and changes flags. -/
theorem effect_of_flags {pc : Word} (ht : t = { s with pc := pc, ps := ps }) (stored : storedAddresses i s = [])
    (flags : ∀ f, writesFlag i f = false → flag ps f = flag s.ps f) : Effect i s t := by
  subst ht
  exact effect_of_registers rfl stored (fun _ => rfl) (fun _ => rfl) (fun _ => rfl) (fun _ => rfl) (fun _ _ => rfl) flags

/-- An instruction that writes one byte of memory and changes flags. -/
theorem effect_of_write {ea : Word} (ht : t = { (s.advance n).busWrite ea v with ps := ps }) (stored : storedAddresses i s = [ea])
    (flags : ∀ f, writesFlag i f = false → flag ps f = flag s.ps f) : Effect i s t := by
  subst ht
  have bus : SameBus s (s.advance n) := ⟨rfl, rfl, rfl, rfl, rfl⟩
  obtain ⟨cfg, mem, ports, overwritten, draws⟩ := bus.busWrite ea v
  constructor
  case flags => exact flags
  case stores => exact ⟨[(ea, v)], stored.symm, cfg, mem, ports, overwritten, draws⟩
  all_goals simp

/-- An instruction that writes A, or M(X) when T = 1, and changes flags (10_state.md R21). -/
theorem effect_of_destination (ht : t = { (s.advance n).dstWrite v with ps := ps }) (writes : writesA i s = !flag s.ps .t)
    (stored : storedAddresses i s = if flag s.ps .t then [zeroPage s.x] else [])
    (flags : ∀ f, writesFlag i f = false → flag ps f = flag s.ps f) : Effect i s t := by
  rw [State.dstWrite, advance_ps, advance_x, ← zeroPage_eq_zext16] at ht
  cases T : flag s.ps .t with
  | true =>
    rw [T, if_pos rfl] at ht stored
    exact effect_of_write ht stored flags
  | false =>
    rw [T, if_neg Bool.false_ne_true] at ht stored
    subst ht
    refine effect_of_registers rfl stored (fun notA => ?_) (fun _ => rfl) (fun _ => rfl) (fun _ => rfl) (fun _ _ => rfl) flags
    rw [writes, T] at notA
    cases notA

/-- An instruction that writes A and changes flags. -/
theorem effect_of_accumulator (ht : t = { s.advance n with a := v, ps := ps }) (writes : writesA i s = true)
    (stored : storedAddresses i s = []) (flags : ∀ f, writesFlag i f = false → flag ps f = flag s.ps f) : Effect i s t := by
  subst ht
  refine effect_of_registers rfl stored (fun notA => ?_) (fun _ => rfl) (fun _ => rfl) (fun _ => rfl) (fun _ _ => rfl) flags
  rw [writes] at notA
  cases notA

/-- An instruction that pushes bytes and changes A, PC and flags besides. -/
theorem effect_of_pushes {bytes : List Byte} {pc : Word}
    (ht : t = { pushAll { s with pc := pc, ps := ps } bytes with a := t.a, pc := t.pc, ps := t.ps })
    (stored : storedAddresses i s = pushAddresses s bytes) (writesSp : writesS i = true) (a : writesA i s = false → t.a = s.a)
    (flags : ∀ f, writesFlag i f = false → flag t.ps f = flag s.ps f) : Effect i s t := by
  obtain ⟨writes, addresses, cfg, mem, ports, overwritten, draws⟩ :=
    pushAll_stores (s := s) (t := { s with pc := pc, ps := ps }) ⟨rfl, rfl, rfl, rfl, rfl⟩ rfl bytes
  obtain ⟨_, _, _, _, pushed⟩ := pushAll_keeps { s with pc := pc, ps := ps } bytes
  rw [pushed] at ht cfg mem ports overwritten draws
  rw [ht]
  exact { a, flags, x := fun _ => rfl, y := fun _ => rfl, sp := fun h => absurd (writesSp.symm.trans h) Bool.noConfusion,
          run := fun _ _ => rfl, outside := rfl, hazard := rfl, lag := rfl, forced := rfl, cycles := rfl,
          stores := ⟨writes, addresses.trans stored.symm, cfg, mem, ports, overwritten, draws⟩ }

end shapes

section flags
variable {f : Flag}

/-- A computation of N and Z leaves the flags that the table does not give it (10_state.md R24). -/
theorem flag_setNZ_other (ps v : Byte) (h : (f == .n || f == .z) = false) : flag (setNZ ps v) f = flag ps f := by
  obtain ⟨notN, notZ⟩ := Bool.or_eq_false_iff.mp h
  rw [flag_setNZ, if_neg (beq_eq_false_iff_ne.mp notZ), if_neg (beq_eq_false_iff_ne.mp notN)]

theorem flag_setNZC_other (ps v : Byte) (c : Bool) (h : (f == .n || f == .z || f == .c) = false) :
    flag (setNZC ps v c) f = flag ps f := by
  obtain ⟨notNZ, notC⟩ := Bool.or_eq_false_iff.mp h
  rw [setNZC, flag_putFlag, if_neg (beq_eq_false_iff_ne.mp notC), flag_setNZ_other ps v notNZ]

theorem flag_putNVZC_other (ps : Byte) (n v z c : Bool) (h : (f == .n || f == .v || f == .z || f == .c) = false) :
    flag (putNVZC ps n v z c) f = flag ps f := by
  simp only [Bool.or_eq_false_iff, beq_eq_false_iff_ne] at h
  simp [h]

theorem flag_adcComputed_other (k : Nat) (ps d m : Byte) (h : (f == .n || f == .v || f == .z || f == .c) = false) :
    flag (adcComputed k ps d m).ps f = flag ps f := by
  unfold adcComputed
  split <;> exact flag_putNVZC_other _ _ _ _ _ h

theorem flag_sbcComputed_other (k : Nat) (ps d m : Byte) (h : (f == .n || f == .v || f == .z || f == .c) = false) :
    flag (sbcComputed k ps d m).ps f = flag ps f := by
  unfold sbcComputed
  split <;> exact flag_putNVZC_other _ _ _ _ _ h

theorem flag_bitTestPS_notNVZ (ps a m : Byte) (h : (f == .n || f == .v || f == .z) = false) :
    flag (bitTestPS ps a m) f = flag ps f := by
  simp only [Bool.or_eq_false_iff, beq_eq_false_iff_ne] at h
  obtain ⟨⟨notN, notV⟩, notZ⟩ := h
  exact flag_bitTestPS_other ps a m notZ notV notN

/-- Taking an exception leaves the flags but B and I (47_interrupt_special_other.md R157). -/
theorem flag_exception_other (ps : Byte) (b : Bool) (h : (f == .b || f == .i) = false) :
    flag (putFlag (putFlag ps .b b) .i true) f = flag ps f := by
  obtain ⟨notB, notI⟩ := Bool.or_eq_false_iff.mp h
  rw [flag_putFlag, if_neg (beq_eq_false_iff_ne.mp notI), flag_putFlag, if_neg (beq_eq_false_iff_ne.mp notB)]

/-- N after LSR is bit 7 of the result, which is 0 (44_shift_rotate.md R123). -/
theorem lsrComputed_ps (ps v : Byte) : (lsrComputed ps v).ps = setNZC ps (v >>> 1) (bitOf v 0) := by
  have negative : bitOf (v >>> 1) 7 = false := by rw [bitOf, BitVec.getLsbD_ushiftRight, BitVec.getLsbD_of_ge _ _ (by decide)]
  rw [lsrComputed, setNZC, setNZ, negative]

end flags

/-- The last byte of an instruction of three bytes (46_jump_branch_return.md R142). -/
theorem add_three_sub_one (w : Word) : w + BitVec.ofNat 16 3 - 1#16 = w + 2#16 := by bv_omega

/-- The last byte of an instruction of two bytes (46_jump_branch_return.md R142). -/
theorem add_two_sub_one (w : Word) : w + BitVec.ofNat 16 2 - 1#16 = w + 1#16 := by bv_omega

theorem addressList_of_ok {m : MemMode} {s : State} {ea : Word} (h : m.address s = .ok ea) : addressList m s = [ea] := by
  rw [addressList, h]


/-- What every instruction leaves, by the shape of its meaning. -/
theorem exec_effect {i : Instr} {s t : State} (h : exec i s = .next t) : Effect i s t := by
  cases i with dsimp only [exec] at h
  | ldaIndX | ldaZp | ldaImm | ldaAbs | ldaIndY | ldaZpX | ldaAbsY | ldaAbsX =>
    obtain ⟨_, -, ht⟩ := loadDestination_next.mp h
    exact effect_of_destination ht rfl rfl fun _ => flag_setNZ_other _ _
  | oraIndX | oraZp | oraImm | oraAbs | oraIndY | oraZpX | oraAbsY | oraAbsX | andIndX | andZp | andImm | andAbs | andIndY
  | andZpX | andAbsY | andAbsX | eorIndX | eorZp | eorImm | eorAbs | eorIndY | eorZpX | eorAbsY | eorAbsX =>
    obtain ⟨_, -, ht⟩ := accumulate_next.mp h
    exact effect_of_destination ht rfl rfl fun _ => flag_setNZ_other _ _
  | adcIndX | adcZp | adcImm | adcAbs | adcIndY | adcZpX | adcAbsY | adcAbsX =>
    obtain ⟨_, -, ht⟩ := accumulate_next.mp h
    exact effect_of_destination ht rfl rfl fun _ => flag_adcComputed_other _ _ _ _
  | sbcIndX | sbcZp | sbcImm | sbcAbs | sbcIndY | sbcZpX | sbcAbsY | sbcAbsX =>
    obtain ⟨_, -, ht⟩ := accumulate_next.mp h
    exact effect_of_destination ht rfl rfl fun _ => flag_sbcComputed_other _ _ _ _
  | cmpIndX | cmpZp | cmpImm | cmpAbs | cmpIndY | cmpZpX | cmpAbsY | cmpAbsX =>
    obtain ⟨_, -, ht⟩ := compareDestination_next.mp h
    exact effect_of_flags ht rfl fun _ => flag_setNZC_other _ _ _
  | cpyImm | cpyZp | cpyAbs | cpxImm | cpxZp | cpxAbs =>
    obtain ⟨_, -, ht⟩ := compareRegister_next.mp h
    exact effect_of_flags ht rfl fun _ => flag_setNZC_other _ _ _
  | bitZp | bitAbs =>
    obtain ⟨_, -, ht⟩ := testMemory_next.mp h
    exact effect_of_flags ht rfl fun _ => flag_bitTestPS_notNVZ _ _ _
  | tstZp =>
    obtain ⟨_, -, ht⟩ := testMemory_next.mp h
    exact effect_of_flags ht rfl fun _ => flag_setNZ_other _ _
  | ldxImm | ldxZp | ldxAbs | ldxZpY | ldxAbsY =>
    obtain ⟨_, -, rfl⟩ := loadX_next.mp h
    exact effect_of_registers rfl rfl (fun _ => rfl) nofun (fun _ => rfl) (fun _ => rfl) (fun _ _ => rfl) fun _ => flag_setNZ_other _ _
  | ldyImm | ldyZp | ldyAbs | ldyZpX | ldyAbsX =>
    obtain ⟨_, -, rfl⟩ := loadY_next.mp h
    exact effect_of_registers rfl rfl (fun _ => rfl) (fun _ => rfl) nofun (fun _ => rfl) (fun _ _ => rfl) fun _ => flag_setNZ_other _ _
  | ldm | staIndX | styZp | staZp | stxZp | styAbs | staAbs | stxAbs | staIndY | styZpX | staZpX | stxZpY | staAbsY | staAbsX =>
    obtain ⟨_, address, ht⟩ := store_next.mp h
    rw [← busWrite_with_ps] at ht
    exact effect_of_write ht (addressList_of_ok address) fun _ _ => rfl
  | decZp | decAbs | decZpX | decAbsX | incZp | incAbs | incZpX | incAbsX | comZp =>
    obtain ⟨_, address, ht⟩ := modifyMemory_next.mp h
    exact effect_of_write ht (addressList_of_ok address) fun _ => flag_setNZ_other _ _
  | aslZp | aslAbs | aslZpX | aslAbsX | rolZp | rolAbs | rolZpX | rolAbsX | rorZp | rorAbs | rorZpX | rorAbsX =>
    obtain ⟨_, address, ht⟩ := modifyMemory_next.mp h
    exact effect_of_write ht (addressList_of_ok address) fun _ => flag_setNZC_other _ _ _
  | lsrZp | lsrAbs | lsrZpX | lsrAbsX =>
    obtain ⟨_, address, ht⟩ := modifyMemory_next.mp h
    rw [lsrComputed_ps] at ht
    exact effect_of_write ht (addressList_of_ok address) fun _ => flag_setNZC_other _ _ _
  | sebZp | clbZp | rrfZp =>
    obtain ⟨_, address, ht⟩ := modifyMemory_next.mp h
    exact effect_of_write ht (addressList_of_ok address) fun _ _ => rfl
  | incA | decA =>
    exact effect_of_accumulator (modifyA_next.mp h) rfl rfl fun _ => flag_setNZ_other _ _
  | aslA | rolA | rorA =>
    exact effect_of_accumulator (modifyA_next.mp h) rfl rfl fun _ => flag_setNZC_other _ _ _
  | lsrA =>
    have ht := modifyA_next.mp h
    rw [lsrComputed_ps] at ht
    exact effect_of_accumulator ht rfl rfl fun _ => flag_setNZC_other _ _ _
  | sebA | clbA => exact effect_of_accumulator (modifyA_next.mp h) rfl rfl fun _ _ => rfl
  | clt | clc | set | sec | cli | sei | clv | cld | sed =>
    exact effect_of_flags (changeFlag_next.mp h) rfl fun f other => by
      rw [flag_putFlag, if_neg (beq_eq_false_iff_ne.mp other)]
  | bbsA | bbsZp | bpl | bbcA | bbcZp | bmi | bvc | bvs | bra | bcc | bcs | bne | beq =>
    exact effect_of_flags (branchWhen_next.mp h) rfl fun _ _ => rfl
  | jmpInd | jmpZpInd =>
    obtain ⟨_, -, ht⟩ := proceed_next.mp h
    exact effect_of_flags ht rfl fun _ _ => rfl
  | jmpAbs | nop =>
    cases h
    exact effect_of_flags rfl rfl fun _ _ => rfl
  | txa | tya =>
    cases h
    exact effect_of_accumulator rfl rfl rfl fun _ => flag_setNZ_other _ _
  | tax | tsx | inx | dex =>
    cases h
    exact effect_of_registers rfl rfl (fun _ => rfl) nofun (fun _ => rfl) (fun _ => rfl) (fun _ _ => rfl) fun _ => flag_setNZ_other _ _
  | tay | iny | dey =>
    cases h
    exact effect_of_registers rfl rfl (fun _ => rfl) (fun _ => rfl) nofun (fun _ => rfl) (fun _ _ => rfl) fun _ => flag_setNZ_other _ _
  | txs | rts =>
    cases h
    exact effect_of_registers rfl rfl (fun _ => rfl) (fun _ => rfl) (fun _ => rfl) nofun (fun _ _ => rfl) fun _ _ => rfl
  | plp | rti =>
    cases h
    exact effect_of_registers rfl rfl (fun _ => rfl) (fun _ => rfl) (fun _ => rfl) nofun (fun _ _ => rfl) nofun
  | pla =>
    cases h
    exact effect_of_registers rfl rfl nofun (fun _ => rfl) (fun _ => rfl) nofun (fun _ _ => rfl) fun _ => flag_setNZ_other _ _
  | wit =>
    obtain ⟨-, waits⟩ := whenPresent_next.mp h
    cases waits
    exact effect_of_registers rfl rfl (fun _ => rfl) (fun _ => rfl) (fun _ => rfl) (fun _ => rfl) (fun other => absurd rfl other)
      fun _ _ => rfl
  | stp =>
    cases h
    split <;> exact effect_of_registers rfl rfl (fun _ => rfl) (fun _ => rfl) (fun _ => rfl) (fun _ => rfl)
      (fun _ other => absurd rfl other) fun _ _ => rfl
  | pha =>
    cases h
    exact effect_of_pushes (bytes := [s.a]) rfl rfl rfl (by simp) (by simp)
  | php =>
    cases h
    exact effect_of_pushes (bytes := [s.ps]) rfl rfl rfl (by simp) (by simp)
  | jsrAbs =>
    obtain ⟨_, -, rfl⟩ := callSubroutine_next.mp h
    rw [add_three_sub_one]
    exact effect_of_pushes (bytes := [_, _]) rfl rfl rfl (by simp) (by simp)
  | jsrZpInd | jsrSp =>
    obtain ⟨_, -, rfl⟩ := callSubroutine_next.mp h
    rw [add_two_sub_one]
    exact effect_of_pushes (bytes := [_, _]) rfl rfl rfl (by simp) (by simp)
  | mulZpX =>
    obtain ⟨-, multiplied⟩ := whenPresent_next.mp h
    obtain rfl := multiply_next.mp multiplied
    exact effect_of_pushes (bytes := [_]) rfl rfl rfl nofun (by simp)
  | divZpX =>
    obtain ⟨-, divided⟩ := whenPresent_next.mp h
    obtain ⟨v, _, rfl⟩ := divide_next divided
    exact effect_of_pushes (bytes := [v]) rfl rfl rfl nofun (by simp)
  | brk =>
    cases h
    exact effect_of_pushes (bytes := [highByte (s.pc + 2#16), lowByte (s.pc + 2#16), putFlag s.ps .b true]) rfl rfl rfl
      (by simp) fun _ other => by rw [enterException_ps, flag_exception_other _ _ other]

end Sys2Proof.Proofs

/-! The frames of an instruction (10_state.md R11 to R13, R24; 20_memory.md R38) and the invariants of the whole machine. What every write
of an instruction keeps, the instruction keeps; what writes, request bits, resets and outside moves keep, every step keeps. -/
namespace Sys2Proof.Proofs

open Sys2Proof.Machine Sys2Proof.Claims

section stores
variable {P : State → Prop} {i : Instr} {s t : State}

theorem storeAll_keeps {writes : List (Word × Byte)} (start : P s)
    (write : ∀ u ea v, ea ∈ writes.map Prod.fst → u.cfg = s.cfg → P u → P (u.busWrite ea v)) :
    P (storeAll s writes) ∧ (storeAll s writes).cfg = s.cfg := by
  suffices ∀ u, u.cfg = s.cfg → P u → P (storeAll u writes) ∧ (storeAll u writes).cfg = s.cfg from this s rfl start
  induction writes with
  | nil => exact fun u cfg h => ⟨h, cfg⟩
  | cons w writes ih =>
    intro u cfg h
    have later := ih fun u ea v mem => write u ea v (List.mem_cons_of_mem _ mem)
    exact later _ ((busWrite_cfg u w.1 w.2).trans cfg) (write u w.1 w.2 List.mem_cons_self cfg h)

/-- What every write at an address the instruction stores to keeps, the instruction keeps: it does nothing else to the bus. -/
theorem exec_keeps (executed : exec i s = .next t) (bus : ∀ {u u'}, SameBus u u' → P u → P u') (start : P s)
    (write : ∀ u ea v, ea ∈ storedAddresses i s → u.cfg = s.cfg → P u → P (u.busWrite ea v)) : P t := by
  obtain ⟨writes, addresses, same⟩ := (exec_effect executed).stores
  rw [← addresses] at write
  exact bus same (storeAll_keeps start write).1

theorem exec_draws (executed : exec i s = .next t) : t.draws = s.draws :=
  exec_keeps (P := fun u => u.draws = s.draws) executed (fun same h => same.draws.trans h) rfl
    fun u ea v _ _ h => (busWrite_draws u ea v).trans h

end stores

/-- Settles O36: the registers by the effect of the instruction, the rest because no meaning touches it. -/
theorem registerFrame : Obligations.RegisterFrame := by
  intro i s t executed
  obtain ⟨a, x, y, sp, run, outside, hazard, lag, forced, cycles, -, -⟩ := exec_effect executed
  exact ⟨a, x, y, sp, run, exec_cfg executed, outside, hazard, lag, forced, exec_draws executed, cycles⟩

/-- Settles O37. -/
theorem flagFrame : Obligations.FlagFrame := fun _ _ _ f executed => (exec_effect executed).flags f

section write
variable {s : State} {ea : Word} {a k : Nat} {v : Byte}

theorem mem_sideAddresses {c : Config} : a ∈ sideAddresses c ea ↔
    ∃ b, kindAt c ea = .register b ∧ ∃ n ∈ b.mayRequest, ∃ q, c.irqSources[n]? = some q ∧ q.requestAddress.toNat = a := by
  unfold sideAddresses
  split
  · next b kind => simp [kind]
  · next other => exact ⟨nofun, fun ⟨b, kind, _⟩ => (other b kind).elim⟩

/-- A byte that a write neither goes to nor may set request bits of stays (20_memory.md R37, 70_reset_and_hazards.md R207). -/
theorem busWrite_read_of_not_side (elsewhere : a ≠ ea.toNat) (noSide : a ∉ sideAddresses s.cfg ea) :
    (s.busWrite ea v).mem.read a = s.mem.read a :=
  busWrite_read_ne s v elsewhere fun b kind n mem q source side => noSide (mem_sideAddresses.mpr ⟨b, kind, n, mem, q, source, side.symm⟩)

/-- A bit at another address than the written one stays, or is a request bit that the write may set, and becomes 1 (R207). -/
theorem bitOf_busWrite_elsewhere (elsewhere : a ≠ ea.toNat) : bitOf ((s.busWrite ea v).mem.read a) k = bitOf (s.mem.read a) k ∨
    (bitOf ((s.busWrite ea v).mem.read a) k = true ∧ MayBeRequested s.cfg ea a k) := by
  unfold State.busWrite
  dsimp only
  split
  case h_1 => exact .inl (by rw [Memory.read_write_ne _ _ elsewhere])
  case h_2 b kind =>
    have set := bitOf_requestsOnWrite s.cfg s.draws ea b.mayRequest
      (s.mem.write ea.toNat (storedByte s.cfg ea (s.mem.read ea.toNat) (underMask b.writeMask (s.mem.read ea.toNat) v))) a k
    rw [Memory.read_write_ne _ _ elsewhere] at set
    exact set.imp_right fun ⟨one, source⟩ => ⟨one, b, kind, source⟩
  all_goals exact .inl rfl

/-- A port other than the one whose register is written stays (20_memory.md R39, R40). -/
theorem busWrite_port_of_ne {n : Nat} (other : kindAt s.cfg ea ≠ .port n ∧ kindAt s.cfg ea ≠ .direction n) :
    (s.busWrite ea v).port n = s.port n := by
  unfold State.busWrite
  dsimp only
  split
  case h_3 m kind | h_4 m kind =>
    have ne : m ≠ n := by
      rintro rfl
      simp [kind] at other
    simp [State.port, List.getD_eq_getElem?_getD, List.getElem?_set_ne ne]
  all_goals rfl

end write

/-- Settles O38: each of the three is kept by every write of the instruction. -/
theorem memoryFrame : Obligations.MemoryFrame := by
  intro i s t executed
  refine ⟨?bytes, ?bits, ?ports⟩
  case bytes =>
    intro b untouched
    refine exec_keeps (P := fun u => u.mem.read b = s.mem.read b) executed (fun same h => by rw [same.mem, h]) rfl ?_
    intro u ea v stored cfg h
    obtain ⟨elsewhere, noSide⟩ := untouched ea stored
    rw [busWrite_read_of_not_side elsewhere (cfg.symm ▸ noSide), h]
  case bits =>
    intro b k untouched
    refine exec_keeps (P := fun u => bitOf (u.mem.read b) k = bitOf (s.mem.read b) k ∨
      (bitOf (u.mem.read b) k = true ∧ ∃ ea ∈ storedAddresses i s, MayBeRequested s.cfg ea b k)) executed
      (fun same h => by rw [same.mem]; exact h) (.inl rfl) ?_
    intro u ea v stored cfg h
    obtain kept | ⟨one, may⟩ := bitOf_busWrite_elsewhere (s := u) (v := v) (k := k) (untouched ea stored)
    · rw [kept]
      exact h
    · exact .inr ⟨one, ea, stored, cfg ▸ may⟩
  case ports =>
    intro n untouched
    refine exec_keeps (P := fun u => u.port n = s.port n) executed (fun same h => by rw [State.port, same.ports]; exact h) rfl ?_
    intro u ea v stored cfg h
    rw [busWrite_port_of_ne (cfg.symm ▸ untouched ea stored), h]

/-! ### Hardware reset -/

section reset
variable (s : State)

@[simp] theorem hardwareReset_ps : s.hardwareReset.ps = putFlag (Config.unspecifiedByte s.draws .resetPS) .i true := by
  unfold State.hardwareReset; dsimp only; split <;> rfl
@[simp] theorem hardwareReset_mem : s.hardwareReset.mem = s.memoryAfterReset := by
  unfold State.hardwareReset; dsimp only; split <;> rfl
@[simp] theorem hardwareReset_ports : s.hardwareReset.ports = s.ports.mapIdx (portAfterReset s) := by
  unfold State.hardwareReset; dsimp only; split <;> rfl
@[simp] theorem hardwareReset_run : s.hardwareReset.run = .run := by
  unfold State.hardwareReset; dsimp only; split <;> rfl
@[simp] theorem hardwareReset_overwritten : s.hardwareReset.overwritten = [] := by
  unfold State.hardwareReset; dsimp only; split <;> rfl
@[simp] theorem hardwareReset_cfg : s.hardwareReset.cfg = s.cfg := by
  unfold State.hardwareReset; dsimp only; split <;> rfl

theorem hardwareReset_pc_of_entry {pc : Word} (h : s.cfg.vecReset = .entry pc) : s.hardwareReset.pc = pc := by
  unfold State.hardwareReset
  rw [h]

theorem hardwareReset_pc_of_vector {v : Word} (h : s.cfg.vecReset = .vector v) :
    s.hardwareReset.pc = concat (s.hardwareReset.busRead .vectorHigh (v + 1#16)) (s.hardwareReset.busRead .vectorLow v) := by
  unfold State.hardwareReset
  rw [h]
  rfl

/-- The bytes of a memory in canonical form that a hardware reset scrambles keep it in that form. -/
theorem memoryAfterReset_wf {s : State} (h : s.mem.wf) : s.memoryAfterReset.wf :=
  List.foldlRecOn _ _ h fun m wf c _ => by
    dsimp only
    split
    · exact wf
    · exact Memory.wf_write _ wf (BitVec.isLt _)

/-- A byte that survives a hardware reset is not among those it scrambles (92_eei_decisions.md D28). -/
theorem memoryAfterReset_read {s : State} {a : Word} (survives : survivesReset s.cfg a = true) :
    s.memoryAfterReset.read a.toNat = s.mem.read a.toNat :=
  List.foldlRecOn _ _ (motive := fun m => Memory.read m a.toNat = s.mem.read a.toNat) rfl fun m kept c _ => by
    dsimp only
    split
    · exact kept
    · next scrambled =>
      have elsewhere : a.toNat ≠ (BitVec.ofNat 16 c.1).toNat := fun same => scrambled (BitVec.eq_of_toNat_eq same ▸ survives)
      exact (Memory.read_write_ne _ _ elsewhere).trans kept

theorem hardwareReset_formed {s : State} (h : s.Formed) : s.hardwareReset.Formed := by
  obtain ⟨wf, ports⟩ := h
  refine ⟨?_, ?_⟩
  · rw [hardwareReset_mem]
    exact memoryAfterReset_wf wf
  · rw [hardwareReset_ports, List.length_mapIdx, hardwareReset_cfg, ports]

theorem survivesReset_of_rom {c : Config} {a : Word} (rom : kindAt c a = .rom) : survivesReset c a = true := by
  rw [survivesReset, rom]

theorem acceptable_eq_none_of_disabled {s : State} (disabled : flag s.ps .i = true) (among : IrqSource → Bool) :
    s.acceptable among = none :=
  List.find?_eq_none.mpr fun q _ => by simp [accepts_of_disabled disabled q]

theorem hardwareReset_direction {s : State} {n : Nat} (h : n < s.ports.length) :
    (s.hardwareReset.port n).direction = inputDirection (portConfig s.cfg n) := by
  simp [State.port, List.getD_eq_getElem?_getD, h, portAfterReset]

end reset

/-- Settles O2, field by field of the state after the reset. -/
theorem hardwareResetState : Obligations.HardwareResetState := by
  intro s ⟨formed, _⟩
  have disabled : flag s.hardwareReset.ps .i = true := by rw [hardwareReset_ps, flag_putFlag, if_pos rfl]
  refine ⟨disabled, hardwareReset_run s, ⟨hardwareReset_formed formed, hardwareReset_overwritten s⟩, hardwareReset_cfg s,
    acceptable_eq_none_of_disabled disabled, fun _ => hardwareReset_direction, ?rom, fun _ => hardwareReset_pc_of_entry s,
    fun _ => hardwareReset_pc_of_vector s⟩
  intro a rom
  rw [hardwareReset_mem, memoryAfterReset_read (survivesReset_of_rom rom)]

/-- Settles O1: the reset state is written out. -/
theorem resetState : Obligations.ResetState :=
  ⟨rfl, rfl, ⟨⟨Memory.wf_nil, rfl⟩, rfl⟩, fun _ => rfl⟩

/-! ### What every step keeps -/

/-- A property of the product, the memory and the ports that every single change of them keeps. -/
structure BusInvariant (P : State → Prop) : Prop where
  congr : ∀ {s t : State}, P s → t.cfg = s.cfg → t.mem = s.mem → t.ports = s.ports → P t
  write : ∀ {s : State} (ea : Word) (v : Byte), P s → P (s.busWrite ea v)
  request : ∀ {s : State} {q : IrqSource} (b : Bool), q ∈ s.cfg.irqSources → P s → P (s.putRequest q b)
  reset : ∀ {s : State}, P s → P s.hardwareReset
  ports : ∀ {s : State} {ps : List Port}, ps.length = s.ports.length → P s → P { s with ports := ps }
  register : ∀ {s : State} {ea : Word} {b : RegisterBehaviour} (v : Byte), kindAt s.cfg ea = .register b → P s →
    P { s with mem := s.mem.write ea.toNat v }

namespace BusInvariant
variable {P : State → Prop} (inv : BusInvariant P) {s t : State}
include inv

theorem applyMove (m : OutsideMove) (h : P s) : P (applyMove s m) := by
  obtain reset | ⟨q, source, requested⟩ | ⟨ps, length, ports⟩ | ⟨a, b, v, kind, register⟩ := applyMove_cases s m
  · exact reset ▸ inv.reset h
  · exact requested ▸ inv.request true source h
  · exact ports ▸ inv.ports length h
  · exact register ▸ inv.register v kind h

theorem arrive (h : P s) : P s.arrive := by
  unfold State.arrive
  split
  · exact h
  · exact List.foldlRecOn _ _ (inv.congr h rfl rfl rfl) fun u h m _ => inv.applyMove m h

theorem push (v : Byte) (h : P s) : P (s.push v) := inv.congr (inv.write (s.stackAddress s.sp) v h) rfl rfl rfl

theorem takeInterrupt {q : IrqSource} (source : q ∈ s.cfg.irqSources) (h : P s) : P (s.takeInterrupt q) := by
  have flagged : P { s with ps := putFlag s.ps .b false } := inv.congr h rfl rfl rfl
  have saved : P (s.saveContext s.pc false) :=
    inv.congr (inv.push (putFlag s.ps .b false) (inv.push (lowByte s.pc) (inv.push (highByte s.pc) flagged))) rfl rfl rfl
  have kept : q ∈ (s.saveContext s.pc false).cfg.irqSources := (saveContext_cfg s s.pc false).symm ▸ source
  exact inv.congr (inv.request false kept saved) rfl rfl rfl

theorem standby (wakes : IrqSource → Bool) (h : P s) : P (s.standby wakes) := by
  obtain ⟨q, accepted, next⟩ | ⟨-, -, next⟩ | ⟨-, next⟩ := standby_cases s wakes <;> rw [next]
  · exact inv.takeInterrupt (acceptable_some accepted).1 h
  · exact inv.congr h rfl rfl rfl
  · exact h

theorem exec {i : Instr} (executed : exec i s = .next t) (h : P s) : P t :=
  exec_keeps executed (fun same h => inv.congr h same.cfg same.mem same.ports) h fun _ ea v _ _ => inv.write ea v

/-- Every step keeps it: an acceptance, standby or an instruction, after any moves of the outside. -/
theorem step (stepped : step s = .next t) (h : P s) : P t := by
  have arrived := inv.arrive h
  obtain ⟨-, rfl⟩ | ⟨-, rfl⟩ | ⟨-, q, accepted, rfl⟩ | ⟨-, -, i, u, -, -, executed, rfl⟩ := atBoundary_next stepped
  · exact inv.standby _ arrived
  · exact inv.standby _ arrived
  · exact inv.takeInterrupt (acceptable_some accepted).1 arrived
  · exact inv.congr (inv.exec executed arrived) rfl rfl rfl

end BusInvariant

theorem formed_invariant : BusInvariant State.Formed where
  congr h cfg mem ports := (formed_congr mem ports cfg).mpr h
  write ea v h := busWrite_formed h ea v
  request b _ h := putRequest_formed h _ b
  reset := hardwareReset_formed
  ports length h := ⟨h.1, length.trans h.2⟩
  register v _ h := ⟨Memory.wf_write v h.1 (BitVec.isLt _), h.2⟩

theorem product_invariant (c : Config) : BusInvariant (fun s => s.cfg = c) where
  congr h cfg _ _ := cfg.trans h
  write ea v h := (busWrite_cfg _ ea v).trans h
  request _ _ h := h
  reset h := (hardwareReset_cfg _).trans h
  ports _ h := h
  register _ _ h := h

/-- Settles O57. -/
theorem stepKeepsProduct : Obligations.StepKeepsProduct := fun s _ stepped => (product_invariant s.cfg).step stepped rfl

/-- A step that runs an instruction or takes an interrupt ends with no overwritten bytes noted; standing by and outside moves note
none. -/
theorem arrive_overwritten {s : State} (h : s.overwritten = []) : s.arrive.overwritten = [] := by
  unfold State.arrive
  split
  · exact h
  · refine List.foldlRecOn _ _ (motive := fun u : State => u.overwritten = []) h fun u h m _ => ?_
    obtain reset | ⟨q, _, requested⟩ | ⟨ps, _, ports⟩ | ⟨a, b, v, _, register⟩ := applyMove_cases u m
    · rw [reset, hardwareReset_overwritten]
    · rw [requested, putRequest_overwritten, h]
    · rw [ports, ← h]
    · rw [register, ← h]

theorem standby_overwritten {s : State} (wakes : IrqSource → Bool) (h : s.overwritten = []) : (s.standby wakes).overwritten = [] := by
  obtain ⟨q, -, next⟩ | ⟨-, -, next⟩ | ⟨-, next⟩ := standby_cases s wakes <;> rw [next]
  · exact takeInterrupt_overwritten s q
  · exact h
  · exact h

theorem step_overwritten {s t : State} (h : s.overwritten = []) (stepped : step s = .next t) : t.overwritten = [] := by
  have arrived := arrive_overwritten h
  obtain ⟨-, rfl⟩ | ⟨-, rfl⟩ | ⟨-, q, -, rfl⟩ | ⟨-, -, i, u, -, -, -, rfl⟩ := atBoundary_next stepped
  · exact standby_overwritten _ arrived
  · exact standby_overwritten _ arrived
  · exact takeInterrupt_overwritten _ q
  · exact finish_overwritten _ i u

/-- Settles O56. -/
theorem stepKeepsInvariant : Obligations.StepKeepsInvariant := fun _ _ inv stepped =>
  ⟨formed_invariant.step stepped inv.1, step_overwritten inv.2 stepped⟩

/-- The byte of ROM at an address that is no request register is kept by every change (20_memory.md R37, 92_eei_decisions.md D11). -/
theorem rom_invariant {c : Config} {a : Word} (v : Byte) (rom : kindAt c a = .rom) (noRequest : ∀ q ∈ c.irqSources, q.requestAddress ≠ a) :
    BusInvariant (fun s => s.cfg = c ∧ s.mem.read a.toNat = v) where
  congr h cfg mem _ := ⟨cfg.trans h.1, by rw [mem, h.2]⟩
  write {s} ea w h := by
    obtain ⟨rfl, kept⟩ := h
    refine ⟨busWrite_cfg s ea w, ?_⟩
    by_cases same : ea = a
    · rw [busWrite_mem_of_not_stored (by simp [same, rom]) (by simp [same, rom]), kept]
    · rw [busWrite_read_ne s w (fun e => same (BitVec.eq_of_toNat_eq e.symm)), kept]
      exact fun b _ n _ q source e => noRequest q (List.mem_of_getElem? source) (BitVec.eq_of_toNat_eq e.symm)
  request {s q} b source h := by
    obtain ⟨rfl, kept⟩ := h
    exact ⟨rfl, (Memory.read_write_ne _ _ fun e => noRequest q source (BitVec.eq_of_toNat_eq e.symm)).trans kept⟩
  reset {s} h := by
    obtain ⟨rfl, kept⟩ := h
    exact ⟨hardwareReset_cfg s, by rw [hardwareReset_mem, memoryAfterReset_read (survivesReset_of_rom rom), kept]⟩
  ports _ h := h
  register {s ea b} w kind h := by
    obtain ⟨rfl, kept⟩ := h
    have elsewhere : a.toNat ≠ ea.toNat := fun e => by simp [← BitVec.eq_of_toNat_eq e, rom] at kind
    exact ⟨rfl, (Memory.read_write_ne _ _ elsewhere).trans kept⟩

/-- Settles O58. -/
theorem romNeverChanges : Obligations.RomNeverChanges := fun s _ a rom noRequest stepped =>
  ((rom_invariant (s.mem.read a.toNat) rom noRequest).step stepped ⟨rfl, rfl⟩).2

end Sys2Proof.Proofs

/-! The statement that an instruction completes unless the spec refuses it (30_encoding.md R54, 20_memory.md R49, 70_reset_and_hazards.md
R197): what forming an operand refuses is what the table of refusals says. -/
namespace Sys2Proof.Proofs

open Sys2Proof.Machine Sys2Proof.Claims

/-- The result is the named refusal if there is one, and a next state otherwise. -/
def Refuses (refusal : Option Refusal) (result : Result) : Prop :=
  (refusal = none → ∃ t, result = .next t) ∧ ∀ r, refusal = some r → result = .refused r

section refusals
variable {s : State} {refusal : Option Refusal} {zz : Byte}

theorem refuses_next (t : State) : Refuses none (.next t) := ⟨fun _ => ⟨t, rfl⟩, nofun⟩

theorem refuses_refused (r : Refusal) : Refuses (some r) (.refused r) := ⟨nofun, fun _ h => congrArg _ (Option.some.inj h)⟩

/-- Forming the operand `e` fails exactly with the named refusal. -/
def FailsWith {α : Type} (refusal : Option Refusal) (e : Except Refusal α) : Prop :=
  (refusal = none → ∃ v, e = .ok v) ∧ ∀ r, refusal = some r → e = .error r

theorem refuses_proceed {α : Type} {e : Except Refusal α} {k : α → State} (h : FailsWith refusal e) : Refuses refusal (proceed e k) := by
  refine ⟨fun none => ?_, fun r some => ?_⟩
  · obtain ⟨v, rfl⟩ := h.1 none
    exact ⟨k v, rfl⟩
  · rw [h.2 r some]
    rfl

theorem refuses_whenPresent {present : Bool} {mnemonic : String} {result : Result} (h : Refuses refusal result) :
    Refuses (if present then refusal else some (.absentInstruction mnemonic)) (whenPresent present mnemonic result) := by
  cases present
  · exact refuses_refused _
  · exact h

/-- Where a two-byte item of the zero page starts at 0xFF, the product decides (20_memory.md R49). -/
theorem secondByte_failsWith (s : State) (p : Byte) : FailsWith (pointerRefusal p s) (secondByte s.cfg.zeroPagePointerWrap p) := by
  unfold pointerRefusal
  by_cases pageEnd : p = 0xFF#8 ∧ s.cfg.zeroPagePointerWrap = .refuse
  · rw [if_pos pageEnd]
    obtain ⟨rfl, wrap⟩ := pageEnd
    rw [wrap]
    exact ⟨nofun, fun _ h => congrArg _ (Option.some.inj h)⟩
  · rw [if_neg pageEnd]
    exact ⟨fun _ => secondByte_ok (not_and_or.mp pageEnd), nofun⟩

theorem zeroPagePointer_failsWith (s : State) (p : Byte) : FailsWith (pointerRefusal p s) (s.zeroPagePointer p) := by
  have second := secondByte_failsWith s p
  unfold State.zeroPagePointer
  refine ⟨fun none => ?_, fun r some => ?_⟩
  · obtain ⟨h, ok⟩ := second.1 none
    rw [ok]
    exact ⟨_, rfl⟩
  · rw [second.2 r some]

theorem indX_failsWith (s : State) (zz : Byte) : FailsWith (pointerRefusal (zz + s.x) s) ((MemMode.indX zz).address s) :=
  zeroPagePointer_failsWith s (zz + s.x)

theorem indY_failsWith (s : State) (zz : Byte) : FailsWith (pointerRefusal zz s) ((MemMode.indY zz).address s) := by
  have pointer := zeroPagePointer_failsWith s zz
  unfold MemMode.address
  refine ⟨fun none => ?_, fun r some => ?_⟩
  · obtain ⟨base, ok⟩ := pointer.1 none
    exact ⟨base + zext16 s.y, by simp only [ok]⟩
  · simp only [pointer.2 r some]

/-- Reading a memory operand fails as forming its address does. -/
theorem read_failsWith {m : MemMode} (h : FailsWith refusal (m.address s)) : FailsWith refusal ((Operand.mem m).read s) := by
  unfold Operand.read
  refine ⟨fun none => ?_, fun r some => ?_⟩
  · obtain ⟨ea, ok⟩ := h.1 none
    exact ⟨s.busRead .data ea, by simp only [ok]⟩
  · simp only [h.2 r some]

theorem indirectTarget_failsWith (s : State) (hhll : Word) :
    FailsWith (if lowByte hhll = 0xFF#8 then some .jmpIndirectPageEnd else none) (s.indirectTarget hhll) := by
  unfold State.indirectTarget
  split
  · exact ⟨nofun, fun _ h => congrArg _ (Option.some.inj h)⟩
  · exact ⟨fun _ => ⟨_, rfl⟩, nofun⟩

end refusals

/-- Every instruction is refused as the table says and completes otherwise: the arms that form a pointer or may be absent, one by one;
every other arm answers a next state. -/
theorem exec_refuses (i : Instr) (s : State) : Refuses (refusalOf i s) (exec i s) := by
  cases i with
  | ldaIndX zz | adcIndX zz | sbcIndX zz | andIndX zz | oraIndX zz | eorIndX zz | cmpIndX zz =>
    exact refuses_proceed (read_failsWith (indX_failsWith s zz))
  | staIndX zz => exact refuses_proceed (indX_failsWith s zz)
  | ldaIndY zz | adcIndY zz | sbcIndY zz | andIndY zz | oraIndY zz | eorIndY zz | cmpIndY zz =>
    exact refuses_proceed (read_failsWith (indY_failsWith s zz))
  | staIndY zz => exact refuses_proceed (indY_failsWith s zz)
  | jmpInd hhll => exact refuses_proceed (indirectTarget_failsWith s hhll)
  | jmpZpInd zz => exact refuses_proceed (zeroPagePointer_failsWith s zz)
  | jsrZpInd zz =>
    have pointer := zeroPagePointer_failsWith (((s.advance 2).push (highByte (s.pc + 2#16 - 1#16))).push (lowByte (s.pc + 2#16 - 1#16))) zz
    rw [pointerRefusal, push_cfg, push_cfg, advance_cfg, ← pointerRefusal] at pointer
    exact refuses_proceed pointer
  | mulZpX => exact refuses_whenPresent (refuses_next _)
  | divZpX zz => exact refuses_whenPresent (refuses_proceed (secondByte_failsWith s (zz + s.x)))
  | wit => exact refuses_whenPresent (refuses_next _)
  | _ => exact refuses_next _

/-- Settles O35. -/
theorem executesUnlessRefused : Obligations.ExecutesUnlessRefused := exec_refuses

end Sys2Proof.Proofs

/-! The statements about a step at a boundary: the instruction that runs (00_scope.md R6, 30_encoding.md R50), acceptance (60_exceptions.md
R172, R175, R177), standby (R183), the runs that never leave (70_reset_and_hazards.md R209) and who changes T and B. -/
namespace Sys2Proof.Proofs

open Sys2Proof.Machine Sys2Proof.Claims

/-! ### Fetching -/

section fetch
variable {s : State} {i : Instr}

theorem fetch_of_decode {rest : List Byte} (h : decode s.fetchBytes = .ok (i, rest)) : s.fetch = .ok i := by
  rw [State.fetch, h]

/-- Bytes placed at PC that encode an instruction are fetched as it (R50, R55). -/
theorem fetch_of_placed (encodable : Encodable i) (placed : Placed s i) : s.fetch = .ok i := by
  have bytes : [s.busRead .opcode s.pc, s.busRead .operand1 (s.pc + 1#16), s.busRead .operand2 (s.pc + 2#16)].take i.length =
      encode i := by
    apply List.ext_getElem?
    intro k
    obtain inside | past := Nat.lt_or_ge k i.length
    case inr => rw [List.getElem?_eq_none (by rw [List.length_take]; omega), List.getElem?_eq_none past]
    case inl =>
      obtain ⟨stored, held⟩ := placed k _ (List.getElem?_eq_getElem inside)
      rw [List.getElem?_take_of_lt inside, List.getElem?_eq_getElem (l := encode i) inside, ← held]
      match k, (length_bounds i).2, inside with
      | 0, _, _ => exact congrArg some ((busRead_stored (by simpa [Stored] using stored) _).trans (by simp))
      | 1, _, _ => exact congrArg some (busRead_stored stored _)
      | 2, _, _ => exact congrArg some (busRead_stored stored _)
      | k + 3, short, inside => omega
  have opcode := decodeOpcode_of_take_eq_encode encodable bytes
  have fetched : s.fetchBytes = encode i := by rw [State.fetchBytes, ← lengthByOpcode _ _ _ _ opcode, bytes]
  have decoded := decode_encode encodable []
  rw [List.append_nil, ← fetched] at decoded
  exact fetch_of_decode decoded

theorem runInstruction_of_hazard {r : Refusal} (fetched : s.fetch = .ok i) (hazard : hazardRefusal s.hazard i = some r) :
    runInstruction s = .refused r := by
  simp only [runInstruction, fetched, hazard]

theorem runInstruction_of_fetch (fetched : s.fetch = .ok i) (noHazard : hazardRefusal s.hazard i = none) :
    runInstruction s = complete i s (exec i s) := by
  simp only [runInstruction, fetched, noHazard]

end fetch

/-- Settles O44: the bytes are fetched as the instruction, and the step completes what its meaning answers. -/
theorem stepRunsDecodedInstruction : Obligations.StepRunsDecodedInstruction := by
  intro s i runs bytes noHazard
  have fetched : s.arrive.fetch = .ok i := by
    obtain ⟨rest, decoded⟩ | ⟨wellFormed, placed⟩ := bytes
    · exact fetch_of_decode decoded
    · exact fetch_of_placed (encodable_of_wellFormed wellFormed) placed
  rw [step_of_runsInstruction runs, runInstruction_of_fetch fetched noHazard]
  exact ⟨fun t executed => by rw [executed]; rfl, fun r refused => by rw [refused]; rfl⟩

/-! ### Acceptance -/

section acceptance
variable {s : State} {q : IrqSource}

theorem accepts_iff : s.accepts q = true ↔
    flag s.ps .i = false ∧ ((s.requested q = true ∧ s.enabled q = true) ∨ q ∈ s.forced) := by
  simp [State.accepts, and_comm]

/-- A source that no source before it in the list rivals is the one accepted (R175). -/
theorem acceptable_eq_some {pre post : List IrqSource} {among : IrqSource → Bool} (sources : s.cfg.irqSources = pre ++ q :: post)
    (admitted : among q = true) (accepted : s.accepts q = true) (first : ∀ p ∈ pre, s.accepts p = false) :
    s.acceptable among = some q := by
  have noneBefore : pre.find? (fun q => among q && s.accepts q) = none := List.find?_eq_none.mpr fun p mem => by simp [first p mem]
  rw [State.acceptable, sources, List.find?_append, noneBefore]
  simp [admitted, accepted]

end acceptance

/-- Settles O45. -/
theorem acceptanceCondition : Obligations.AcceptanceCondition := by
  intro s
  refine ⟨⟨?some, ?condition⟩, ?first⟩
  case some =>
    intro notNone
    obtain ⟨q, accepted⟩ := Option.ne_none_iff_exists'.mp notNone
    obtain ⟨source, -, accepts⟩ := acceptable_some accepted
    exact ⟨(accepts_iff.mp accepts).1, q, source, (accepts_iff.mp accepts).2⟩
  case condition =>
    rintro ⟨unmasked, q, source, h⟩
    exact acceptable_ne_none source rfl (accepts_iff.mpr ⟨unmasked, h⟩)
  case first =>
    intro pre q post sources unmasked h first
    refine acceptable_eq_some sources rfl (accepts_iff.mpr ⟨unmasked, h⟩) fun p mem => ?_
    obtain ⟨notBoth, notForced⟩ := first p mem
    rw [Bool.eq_false_iff, Ne, accepts_iff]
    rintro ⟨-, ⟨requested, enabled⟩ | forced⟩
    · simp [requested, enabled] at notBoth
    · exact notForced forced

/-- Settles O33: the first masked pending source of the list. -/
theorem brkMaskedSource : Obligations.BrkMaskedSource := by
  intro s
  refine ⟨?unmasked, ?first, ?nonePending⟩
  case unmasked =>
    intro unmasked
    rw [State.maskedPending, unmasked, if_neg Bool.false_ne_true]
  case first =>
    intro pre q post masked sources earlier requested enabled
    have noneBefore : pre.find? (fun q => s.requested q && s.enabled q) = none :=
      List.find?_eq_none.mpr fun p mem => by obtain h | h := earlier p mem <;> simp [h]
    rw [State.maskedPending, if_pos masked, sources, List.find?_append, noneBefore]
    simp [requested, enabled]
  case nonePending =>
    intro nonePending
    have none : s.cfg.irqSources.find? (fun q => s.requested q && s.enabled q) = none :=
      List.find?_eq_none.mpr fun q mem => by obtain h | h := nonePending q mem <;> simp [h]
    rw [State.maskedPending, none, ite_self]

/-! ### Standby -/

section standby
variable {s : State}

/-- In WAIT and STOP a boundary is standby among the sources that end that state (R183). -/
theorem atBoundary_of_standby (h : s.run ≠ .run) : atBoundary s = .next (s.standby s.wakes) := by
  unfold atBoundary State.wakes
  cases run : s.run with
  | run => exact absurd run h
  | wait | stop => rfl

theorem standby_of_acceptable {wakes : IrqSource → Bool} {q : IrqSource} (h : s.acceptable wakes = some q) :
    s.standby wakes = s.takeInterrupt q := by
  rw [State.standby, h]

theorem standby_of_request {wakes : IrqSource → Bool} (none : s.acceptable wakes = none) (wakeOnRequest : s.cfg.wakeRequiresAccept = false)
    (h : ∃ q ∈ s.cfg.irqSources, wakes q = true ∧ s.requested q = true) : s.standby wakes = { s with run := .run } := by
  have requested : (s.cfg.irqSources.any fun q => wakes q && s.requested q) = true := by simpa using h
  simp only [State.standby, none, if_pos (And.intro wakeOnRequest requested)]

/-- Where nothing wakes, standby changes nothing. -/
theorem standby_of_asleep {wakes : IrqSource → Bool} (none : s.acceptable wakes = none)
    (h : s.cfg.wakeRequiresAccept = true ∨ ∀ q ∈ s.cfg.irqSources, wakes q = true → s.requested q = false) : s.standby wakes = s := by
  have notWoken : ¬(s.cfg.wakeRequiresAccept = false ∧ (s.cfg.irqSources.any fun q => wakes q && s.requested q) = true) := by
    rintro ⟨wakeOnRequest, requested⟩
    obtain needsAccept | noRequest := h
    · exact Bool.noConfusion (needsAccept.symm.trans wakeOnRequest)
    · obtain ⟨q, source, both⟩ := List.any_eq_true.mp requested
      obtain ⟨wakes, asks⟩ := Bool.and_eq_true_iff.mp both
      exact Bool.noConfusion (asks.symm.trans (noRequest q source wakes))
  simp only [State.standby, none, if_neg notWoken]

end standby

/-- Settles O48. -/
theorem standbyStep : Obligations.StandbyStep := by
  intro s inStandby
  rw [step, atBoundary_of_standby inStandby]
  refine ⟨fun q accepted => by rw [standby_of_acceptable accepted], fun none => ⟨fun needsAccept => ?_, fun wakeOnRequest => ⟨?_, ?_⟩⟩⟩
  · rw [standby_of_asleep none (.inl needsAccept)]
  · exact fun request => by rw [standby_of_request none wakeOnRequest request]
  · exact fun noRequest => by rw [standby_of_asleep none (.inr noRequest)]

/-! ### Runs -/

/-- A step from a state to which nothing comes from outside is the boundary itself (70_reset_and_hazards.md R208). -/
theorem step_of_quiet {s : State} (quiet : s.Quiet) : step s = atBoundary s := by
  have arrived : s.arrive = s := by rw [State.arrive, show s.outside = [] from quiet]
  rw [step, arrived]

theorem run_succ_of_step {s t : State} (stepped : step s = .next t) (k : Nat) : core.run (k + 1) s = core.run k t := by
  simp only [Host.Core.run, show core.step s = .next t from stepped]

theorem step_of_asleep {s : State} (asleep : s.Asleep) : step s = .next s := by
  obtain ⟨quiet, inStandby, noneAcceptable, notWoken⟩ := asleep
  have none : s.acceptable s.wakes = none :=
    List.find?_eq_none.mpr fun q source h => by
      obtain ⟨wakes, accepts⟩ := Bool.and_eq_true_iff.mp h
      exact Bool.noConfusion (accepts.symm.trans (noneAcceptable q source wakes))
  rw [step_of_quiet quiet, atBoundary_of_standby inStandby, standby_of_asleep none notWoken]

/-- Settles O49, by induction on the number of steps. -/
theorem asleepForever : Obligations.AsleepForever := by
  intro s k asleep
  induction k with
  | zero => rfl
  | succ k ih => rw [run_succ_of_step (step_of_asleep asleep), ih]

/-- What O50 says of the state, for the induction: a `BRA` to itself at PC with I = 1 and nothing to come. -/
structure SelfBranch (s : State) : Prop where
  quiet : s.Quiet
  run : s.run = .run
  masked : flag s.ps .i = true
  hazard : s.hazard ≠ .afterPlp
  stored : Stored s s.pc ∧ Stored s (s.pc + 1#16)
  opcode : s.mem.read s.pc.toNat = 0x80#8
  displacement : s.mem.read (s.pc + 1#16).toNat = 0xFE#8

theorem fetch_of_selfBranch {s : State} (h : SelfBranch s) : s.fetch = .ok (.bra 0xFE#8) := by
  refine fetch_of_placed (i := .bra 0xFE#8) nofun fun k v byte => ?_
  match k, byte with
  | 0, rfl => exact ⟨by simpa using h.stored.1, by simpa using h.opcode⟩
  | 1, rfl => exact ⟨h.stored.2, h.displacement⟩

theorem exec_bra_self (s : State) : exec (.bra 0xFE#8) s = .next s := by
  have self : branchTarget s.pc 2 0xFE#8 = s.pc := by
    have displacement : sext16 0xFE#8 = 0xFFFE#16 := rfl
    rw [branchTarget, displacement]
    bv_omega
  exact (branchWhen_next (taken := true)).mpr (by rw [if_pos rfl, self])

/-- The step from such a state changes nothing but what time and the end of an instruction change. -/
theorem step_of_selfBranch {s : State} (h : SelfBranch s) : step s = .next (s.finish (.bra 0xFE#8) s) := by
  have runs : RunsInstruction s := ⟨h.run, acceptable_eq_none_of_disabled h.masked _⟩
  have noHazard : hazardRefusal s.hazard (.bra 0xFE#8) = none := by
    cases hazard : s.hazard with
    | none => rfl
    | afterPlp => exact absurd hazard h.hazard
    | afterDecimal => rfl
  rw [step_of_quiet h.quiet, atBoundary, runs.1]
  simp only [runs.2]
  rw [runInstruction_of_fetch (fetch_of_selfBranch h) noHazard, exec_bra_self, complete]

theorem SelfBranch.finish {s : State} (h : SelfBranch s) : SelfBranch (s.finish (.bra 0xFE#8) s) := by
  obtain ⟨quiet, run, masked, hazard, stored, opcode, displacement⟩ := h
  exact ⟨quiet, run, masked, by rw [finish_hazard]; exact nofun, stored, opcode, displacement⟩

/-- Settles O50, by induction on the number of steps. -/
theorem selfBranchForever : Obligations.SelfBranchForever := by
  intro s k quiet run masked hazard kind kind' opcode displacement
  have stored : ∀ {a}, kindAt s.cfg a = .ram ∨ kindAt s.cfg a = .rom → Stored s a := by
    rintro a (h | h) <;> rw [Stored, h] <;> rfl
  have start : SelfBranch s := ⟨quiet, run, masked, hazard, ⟨stored kind, stored kind'⟩, opcode, displacement⟩
  clear quiet masked hazard kind kind' opcode displacement stored
  induction k generalizing s with
  | zero => exact ⟨s, rfl, rfl, rfl, rfl, rfl, rfl, rfl, rfl, rfl, run⟩
  | succ k ih =>
    rw [run_succ_of_step (step_of_selfBranch start)]
    exact ih (s.finish (.bra 0xFE#8) s) run start.finish

end Sys2Proof.Proofs

/-! The statements about the hazards (70_reset_and_hazards.md R193 to R195), about who changes T and B (10_state.md R20, R21) and about
the moves of the outside (R208). -/
namespace Sys2Proof.Proofs

open Sys2Proof.Machine Sys2Proof.Claims

/-! ### PLP and decimal arithmetic -/

section hazards
variable {s t : State} {i : Instr} {rest : List Byte}

/-- What a step at a boundary where the fetched bytes decode answers when the hazard refuses the instruction. -/
theorem step_of_hazard {r : Refusal} (runs : RunsInstruction s.arrive) (decoded : decode s.arrive.fetchBytes = .ok (i, rest))
    (hazard : hazardRefusal s.arrive.hazard i = some r) : step s = .refused r := by
  rw [step_of_runsInstruction runs, runInstruction_of_hazard (fetch_of_decode decoded) hazard]

/-- And what it answers when no hazard does. -/
theorem step_of_noHazard (runs : RunsInstruction s.arrive) (decoded : decode s.arrive.fetchBytes = .ok (i, rest))
    (noHazard : hazardRefusal s.arrive.hazard i = none) : step s = complete i s.arrive (exec i s.arrive) := by
  rw [step_of_runsInstruction runs, runInstruction_of_fetch (fetch_of_decode decoded) noHazard]

theorem hazardAfter_plp (s : State) : hazardAfter .plp s = .afterPlp := if_pos rfl

theorem hazardAfter_of_decimal (adds : isAddOrSubtract i = true) (decimal : flag s.ps .d = true) : hazardAfter i s = .afterDecimal := by
  have notPlp : i ≠ .plp := by
    rintro rfl
    cases adds
  rw [hazardAfter, if_neg notPlp, adds, decimal]
  rfl

theorem hazardAfter_of_other (notPlp : i ≠ .plp) (binary : isAddOrSubtract i = false ∨ flag s.ps .d = false) :
    hazardAfter i s = .none := by
  rw [hazardAfter, if_neg notPlp, if_neg]
  obtain h | h := binary <;> simp [h]

theorem isAddOrSubtract_of_adcForm {o : Operand} (h : adcForm o = some i) : isAddOrSubtract i = true := by
  cases o with
  | imm => cases h; rfl
  | mem m => cases m <;> cases h <;> rfl

theorem isAddOrSubtract_of_sbcForm {o : Operand} (h : sbcForm o = some i) : isAddOrSubtract i = true := by
  cases o with
  | imm => cases h; rfl
  | mem m => cases m <;> cases h <;> rfl

theorem pointerRefusal_ne_flagChange (p : Byte) (s : State) : pointerRefusal p s ≠ some .flagChangeAfterDecimal := by
  unfold pointerRefusal
  split <;> exact nofun

theorem refusalOf_ne_flagChange (i : Instr) (s : State) : refusalOf i s ≠ some .flagChangeAfterDecimal := by
  cases i with
  | ldaIndX | adcIndX | sbcIndX | andIndX | oraIndX | eorIndX | cmpIndX | staIndX | ldaIndY | adcIndY | sbcIndY | andIndY | oraIndY
  | eorIndY | cmpIndY | staIndY | jmpZpInd | jsrZpInd => exact pointerRefusal_ne_flagChange _ s
  | jmpInd | mulZpX | wit =>
    dsimp only [refusalOf]
    split <;> exact nofun
  | divZpX =>
    dsimp only [refusalOf]
    split
    · exact pointerRefusal_ne_flagChange _ s
    · exact nofun
  | _ => exact nofun

/-- A meaning is never refused for the hazard of a flag change: the step alone refuses that (R194). -/
theorem exec_ne_flagChangeAfterDecimal (i : Instr) (s : State) : exec i s ≠ .refused .flagChangeAfterDecimal := by
  intro refused
  cases refusal : refusalOf i s with
  | none =>
    obtain ⟨t, next⟩ := (exec_refuses i s).1 refusal
    rw [next] at refused
    cases refused
  | some r =>
    rw [(exec_refuses i s).2 r refusal] at refused
    cases refused
    exact refusalOf_ne_flagChange i s refusal

end hazards

/-- Settles O51. -/
theorem plpNeedsNop : Obligations.PlpNeedsNop := by
  refine ⟨fun s => ⟨_, rfl, rfl⟩, fun s t => ⟨hazardAfter_plp s, hazardAfter_of_other (s := s) (i := .rti) nofun (.inl rfl)⟩, ?step⟩
  intro s i rest runs hazard decoded
  refine ⟨fun notNop => step_of_hazard runs decoded ?refused, ?nop⟩
  case refused => rw [hazard, hazardRefusal, if_neg notNop]
  case nop =>
    rintro rfl
    exact ⟨_, step_of_noHazard runs decoded (by rw [hazard]; rfl), hazardAfter_of_other (s := s.arrive) (i := .nop) nofun (.inl rfl)⟩

/-- Settles O52. -/
theorem decimalNeedsSpacing : Obligations.DecimalNeedsSpacing := by
  refine ⟨?leaves, fun s t i => hazardAfter_of_other, ?step⟩
  case leaves =>
    rintro s t o i (form | form) decimal
    · exact hazardAfter_of_decimal (isAddOrSubtract_of_adcForm form) decimal
    · exact hazardAfter_of_decimal (isAddOrSubtract_of_sbcForm form) decimal
  case step =>
    intro s i rest runs hazard decoded
    refine ⟨fun flagChange => step_of_hazard runs decoded (by rw [hazard, hazardRefusal, if_pos flagChange]), ?others⟩
    intro notSec notClc notCld refused
    have noHazard : hazardRefusal s.arrive.hazard i = none := by
      rw [hazard, hazardRefusal, if_neg (by simp [notSec, notClc, notCld])]
    rw [step_of_noHazard runs decoded noHazard] at refused
    cases answer : exec i s.arrive with
    | next t => rw [answer] at refused; cases refused
    | fault f => cases f
    | refused r =>
      rw [answer] at refused
      cases refused
      exact exec_ne_flagChangeAfterDecimal i _ answer

/-! ### Who changes T and B -/

/-- The table of R24 gives T to four instructions. -/
theorem writesFlag_t {i : Instr} (h : writesFlag i .t = true) : i = .clt ∨ i = .set ∨ i = .plp ∨ i = .rti := by
  cases i with
  | clt => exact .inl rfl
  | set => exact .inr (.inl rfl)
  | plp => exact .inr (.inr (.inl rfl))
  | rti => exact .inr (.inr (.inr rfl))
  | _ => exact absurd h Bool.false_ne_true

/-- The table of R24 gives B to three instructions. -/
theorem writesFlag_b {i : Instr} (h : writesFlag i .b = true) : i = .brk ∨ i = .plp ∨ i = .rti := by
  cases i with
  | brk => exact .inl rfl
  | plp => exact .inr (.inl rfl)
  | rti => exact .inr (.inr rfl)
  | _ => exact absurd h Bool.false_ne_true

/-- What a boundary can do to a flag: an acceptance, or an instruction that the table of R24 gives it to (10_state.md R24). -/
theorem flag_changed_at_boundary {s t : State} {f : Flag} (h : atBoundary s = .next t) (changed : flag t.ps f ≠ flag s.ps f) :
    (∃ q, s.acceptable s.wakes = some q ∧ t = s.takeInterrupt q) ∨
      ∃ i, RunsInstruction s ∧ s.fetch = .ok i ∧ writesFlag i f = true := by
  by_cases inStandby : s.run = .run
  · obtain ⟨wait, -⟩ | ⟨stop, -⟩ | ⟨-, q, accepted, rfl⟩ | ⟨-, none, i, u, fetched, -, executed, rfl⟩ := atBoundary_next h
    · cases inStandby.symm.trans wait
    · cases inStandby.symm.trans stop
    · have all : s.wakes = fun _ => true := funext fun q => by rw [State.wakes, inStandby]
      exact .inl ⟨q, all ▸ accepted, rfl⟩
    · refine .inr ⟨i, ⟨inStandby, none⟩, fetched, ?_⟩
      by_contra other
      exact changed ((exec_effect executed).flags f (Bool.eq_false_iff.mpr other))
  · rw [atBoundary_of_standby inStandby] at h
    cases h
    obtain ⟨q, accepted, next⟩ | ⟨-, -, next⟩ | ⟨-, next⟩ := standby_cases s s.wakes
    · exact .inl ⟨q, accepted, next⟩
    · exact absurd (by rw [next]) changed
    · exact absurd (by rw [next]) changed

/-- Settles O59: acceptance leaves T and makes B 0. -/
theorem whoChangesTAndB : Obligations.WhoChangesTAndB := by
  intro s t quiet stepped
  rw [step_of_quiet quiet] at stepped
  refine ⟨fun changed => ?t, fun changed => ?b⟩
  case t =>
    obtain ⟨q, -, rfl⟩ | ⟨i, runs, fetched, writes⟩ := flag_changed_at_boundary stepped changed
    · exact absurd (by simp) changed
    · exact ⟨i, runs, fetched, writesFlag_t writes⟩
  case b =>
    obtain ⟨q, accepted, rfl⟩ | ⟨i, runs, fetched, writes⟩ := flag_changed_at_boundary stepped changed
    · exact .inr ⟨⟨q, accepted, rfl⟩, by simp⟩
    · exact .inl ⟨i, runs, fetched, writesFlag_b writes⟩

/-! ### The outside world -/

section outside
variable (s : State)

theorem arrive_of_nil (h : s.outside = []) : s.arrive = s := by rw [State.arrive, h]

theorem arrive_of_cons {moves : List OutsideMove} {later : List (List OutsideMove)} (h : s.outside = moves :: later) :
    s.arrive = moves.foldl applyMove { s with outside := later } := by rw [State.arrive, h]

theorem applyMove_request {n : Nat} {q : IrqSource} (h : s.cfg.irqSources[n]? = some q) :
    applyMove s (.request n) = s.putRequest q true := by simp only [applyMove, h]

theorem applyMove_register {ea : Word} {b : RegisterBehaviour} (v : Byte) (h : kindAt s.cfg ea = .register b) :
    applyMove s (.register ea v) = { s with mem := s.mem.write ea.toNat (presentedByte s.cfg ea b (s.mem.read ea.toNat) v) } := by
  simp only [applyMove, h]

/-- What a register presents changes the bits the outside can change, and no request bit (R208). -/
theorem bitOf_presentedByte (c : Config) (ea : Word) (b : RegisterBehaviour) (old v : Byte) {k : Nat} (hk : k < 8) :
    bitOf (presentedByte c ea b old v) k =
      if bitOf b.outsideMask k = true ∧ isRequestBit c ea k = false then bitOf v k else bitOf old k := by
  unfold presentedByte
  cases request : isRequestBit c ea k with
  | true =>
    obtain ⟨q, source, here⟩ := List.any_eq_true.mp request
    simp only [Bool.and_eq_true, decide_eq_true_eq] at here
    rw [bitOf_mapRequestBits_of_some c ea (fun _ => true) (fun o _ => o) (fun _ _ => rfl) old _ k ⟨q, source, here.1, here.2, rfl⟩,
      if_neg (by simp)]
  | false =>
    have noSource : ∀ q ∈ c.irqSources, q.requestAddress = ea → q.requestBit.toNat = k → true = false := by
      intro q source address bit
      have here := List.any_eq_false.mp request q source
      simp [address, bit] at here
    rw [bitOf_mapRequestBits_of_none c ea (fun _ => true) (fun o _ => o) old _ k noSource, bitOf_underMask _ _ _ _ hk]
    simp

/-- One port of a list replaced: that one, if there is such a port, and no other. -/
theorem port_set_spec (n : Nat) (p : Port) : (n < s.ports.length → (s.ports.set n p)[n]? = some p) ∧
    (s.ports.length ≤ n → s.ports.set n p = s.ports) ∧ ∀ k, k ≠ n → (s.ports.set n p)[k]? = s.ports[k]? :=
  ⟨fun h => List.getElem?_set_self h, fun h => List.set_eq_of_length_le h, fun _ h => List.getElem?_set_ne h.symm⟩

end outside

/-- Settles O60, move by move. -/
theorem outsideMoves : Obligations.OutsideMoves := by
  intro s
  refine ⟨arrive_of_nil s, fun _ _ => arrive_of_cons s, rfl, ?request, ?noSource, ?ports, ?register, ?noRegister⟩
  case request =>
    intro n q source
    exact ⟨_, applyMove_request s source, bitOf_putRequestBit s.mem q true⟩
  case noSource =>
    intro n past
    simp only [applyMove, List.getElem?_eq_none past]
  case ports =>
    intro n v
    obtain ⟨pinsHere, pinsPast, pinsOther⟩ := port_set_spec s n { s.port n with pins := v }
    obtain ⟨outputHere, outputPast, outputOther⟩ := port_set_spec s n { s.port n with peripheral := v }
    exact ⟨_, _, rfl, rfl, fun h => ⟨pinsHere h, outputHere h⟩, fun h => ⟨pinsPast h, outputPast h⟩,
      fun k h => ⟨pinsOther k h, outputOther k h⟩⟩
  case register =>
    intro ea b v kind
    refine ⟨_, applyMove_register s v kind, fun a elsewhere => Memory.read_write_ne _ _ elsewhere, fun k hk => ?_⟩
    rw [Memory.read_write_same, bitOf_presentedByte _ _ _ _ _ hk]
  case noRegister =>
    intro ea v notRegister
    cases kind : kindAt s.cfg ea with
    | register b => exact absurd kind (notRegister b)
    | _ => simp only [applyMove, kind]

end Sys2Proof.Proofs

/-! The statement about BBC and BBS right after a write to a request register (70_reset_and_hazards.md R195): the first write of the
instruction to the register notes the byte it held, later writes keep that note, and the next instruction tests it. -/
namespace Sys2Proof.Proofs

open Sys2Proof.Machine Sys2Proof.Claims

/-- The byte that the instruction in progress has noted for the register at `a`, if it has written it (assumption log 13). -/
def noted (s : State) (a : Word) : Option Byte := (s.overwritten.find? fun c => c.1 == a.toNat).map (·.2)

/-- Bit `k` of the address is stored and reads as held: RAM, or a readable bit of a register (20_memory.md R37). -/
def BitReadsAsHeld (c : Config) (a : Word) (k : Nat) : Prop :=
  kindAt c a = .ram ∨ ∃ b, kindAt c a = .register b ∧ bitOf b.readMask k = true

section note
variable {s : State} {a ea : Word} {v old : Byte} {k : Nat}

theorem bitOf_presented (h : BitReadsAsHeld s.cfg a k) (acc : Access) (held : Byte) : bitOf (s.presented acc a held) k = bitOf held k := by
  obtain ram | ⟨b, kind, readable⟩ := h
  · rw [presented_held (by rw [ram]; rfl)]
  · exact bitOf_presented_register kind readable acc held

/-- A note is not taken back by a later write: the first note counts. -/
theorem noted_busWrite_of_some (h : noted s a = some old) : noted (s.busWrite ea v) a = some old := by
  obtain same | ⟨more, -⟩ := busWrite_overwritten s ea v
  · rw [noted, same, ← noted, h]
  · obtain ⟨c, found, rfl⟩ := Option.map_eq_some_iff.mp h
    rw [noted, more, List.find?_append, found]
    rfl

/-- A write elsewhere notes nothing for the register. -/
theorem noted_busWrite_elsewhere (h : ea ≠ a) : noted (s.busWrite ea v) a = noted s a := by
  obtain same | ⟨more, -⟩ := busWrite_overwritten s ea v
  · rw [noted, same, ← noted]
  · have other : ¬ea.toNat = a.toNat := fun e => h (BitVec.eq_of_toNat_eq e)
    rw [noted, more, List.find?_append, noted]
    simp [other]

/-- The first write to a stored request register notes the byte it held. -/
theorem noted_busWrite_of_none (held : BitReadsAsHeld s.cfg a k) {q : IrqSource} (source : q ∈ s.cfg.irqSources)
    (address : q.requestAddress = a) (notYet : noted s a = none) : noted (s.busWrite a v) a = some (s.mem.read a.toNat) := by
  have notes : s.noteWrite a = s.overwritten ++ [(a.toNat, s.mem.read a.toNat)] := by
    rw [State.noteWrite, if_pos]
    exact List.any_eq_true.mpr ⟨q, source, by simpa using address⟩
  have written : (s.busWrite a v).overwritten = s.overwritten ++ [(a.toNat, s.mem.read a.toNat)] := by
    rw [State.busWrite]
    obtain ram | ⟨b, register, -⟩ := held
    · rw [ram]; exact notes
    · rw [register]; exact notes
  have noEntry : s.overwritten.find? (fun c => c.1 == a.toNat) = none := Option.map_eq_none_iff.mp notYet
  rw [noted, written, List.find?_append, noEntry]
  simp

/-- Writes that go to the register leave the note of the byte it held before them, where no other of them may set its bits. -/
theorem noted_storeAll {writes : List (Word × Byte)} (held : BitReadsAsHeld s.cfg a k) {q : IrqSource} (source : q ∈ s.cfg.irqSources)
    (address : q.requestAddress = a) (notYet : noted s a = none) (written : a ∈ writes.map Prod.fst)
    (noSide : ∀ ea ∈ writes.map Prod.fst, ea ≠ a → a.toNat ∉ sideAddresses s.cfg ea) :
    noted (storeAll s writes) a = some (s.mem.read a.toNat) := by
  induction writes generalizing s with
  | nil => cases written
  | cons w writes ih =>
    obtain ⟨ea, v⟩ := w
    have cfg := busWrite_cfg s ea v
    by_cases here : ea = a
    · subst here
      exact (storeAll_keeps (P := fun u => noted u ea = some (s.mem.read ea.toNat)) (noted_busWrite_of_none held source address notYet)
        fun _ _ _ _ _ h => noted_busWrite_of_some h).1
    · have unchanged : (s.busWrite ea v).mem.read a.toNat = s.mem.read a.toNat :=
        busWrite_read_of_not_side (fun e => here (BitVec.eq_of_toNat_eq e.symm)) (noSide ea List.mem_cons_self here)
      have later : a ∈ writes.map Prod.fst := (List.mem_cons.mp written).resolve_left (Ne.symm here)
      rw [← unchanged]
      exact ih (cfg ▸ held) (cfg ▸ source) ((noted_busWrite_elsewhere here).trans notYet) later
        fun ea mem => cfg.symm ▸ noSide ea (List.mem_cons_of_mem _ mem)

/-- BBC and BBS test the noted byte of a request register, and the present one where none is noted (R195). -/
theorem testedBit_eq {zz : Byte} {q : IrqSource} (source : q ∈ s.cfg.irqSources) (address : q.requestAddress = zeroPage zz)
    (held : BitReadsAsHeld s.cfg (zeroPage zz) q.requestBit.toNat) :
    s.testedBit zz q.requestBit = bitOf ((s.lagging (zeroPage zz)).getD (s.mem.read (zeroPage zz).toNat)) q.requestBit.toNat := by
  have request : isRequestBit s.cfg (zeroPage zz) q.requestBit.toNat = true :=
    List.any_eq_true.mpr ⟨q, source, by simp [address]⟩
  rw [State.testedBit, request]
  cases s.lagging (zeroPage zz) with
  | none => exact bitOf_presented held _ _
  | some old => exact bitOf_presented held _ _

end note

/-- A request from outside changes nothing that BBC and BBS take from the instruction before, and not PC. -/
theorem request_keeps (s : State) (n : Nat) : (applyMove s (.request n)).cfg = s.cfg ∧ (applyMove s (.request n)).lag = s.lag ∧
    (applyMove s (.request n)).pc = s.pc := by
  unfold applyMove
  dsimp only
  split <;> exact ⟨rfl, rfl, rfl⟩

/-- Settles O53. -/
theorem requestBitLag : Obligations.RequestBitLag := by
  intro s t i q zz rr executed noNote source address held
  have cfg : t.cfg = s.cfg := exec_cfg executed
  have notYet : noted s (zeroPage zz) = none := by rw [noted, noNote]; rfl
  refine ⟨?written, ?notWritten⟩
  case written =>
    intro stored noSide u next
    have note : noted t (zeroPage zz) = some (s.mem.read (zeroPage zz).toNat) := by
      obtain ⟨writes, addresses, same⟩ := (exec_effect executed).stores
      rw [← addresses] at stored noSide
      rw [noted, same.overwritten, ← noted]
      exact noted_storeAll held source address notYet stored fun ea mem other => by simpa using noSide ea mem other
    obtain ⟨uCfg, uLag, uPc⟩ : u.cfg = s.cfg ∧ u.lag = t.overwritten ∧ u.pc = t.pc := by
      obtain rfl | ⟨n, rfl⟩ := next
      · exact ⟨cfg, rfl, rfl⟩
      · obtain ⟨cfg', lag', pc'⟩ := request_keeps (s.finish i t) n
        exact ⟨cfg'.trans cfg, lag', pc'⟩
    have tested : u.testedBit zz q.requestBit = s.requested q := by
      have lagging : u.lagging (zeroPage zz) = some (s.mem.read (zeroPage zz).toNat) := by rw [State.lagging, uLag, ← noted, note]
      rw [testedBit_eq (uCfg ▸ source) address (uCfg ▸ held), lagging, State.requested, address]
      rfl
    have bbc := exec_bitBranchZp u q.requestBit zz rr false
    have bbs := exec_bitBranchZp u q.requestBit zz rr true
    rw [tested, uPc] at bbc bbs
    refine ⟨bbc.trans ?_, bbs⟩
    cases s.requested q <;> rfl
  case notWritten =>
    intro notStored
    have noNote : noted t (zeroPage zz) = none := by
      refine exec_keeps (P := fun u => noted u (zeroPage zz) = none) executed (fun same h => ?_) notYet fun u ea v stored _ h => ?_
      · rw [noted, same.overwritten, ← noted, h]
      · have elsewhere : ea ≠ zeroPage zz := fun e => notStored (e ▸ stored)
        exact (noted_busWrite_elsewhere elsewhere).trans h
    have lagging : (s.finish i t).lagging (zeroPage zz) = none := noNote
    rw [testedBit_eq (s := s.finish i t) (cfg.symm ▸ source) address (cfg.symm ▸ held), lagging, State.requested, address]
    rfl

end Sys2Proof.Proofs

/-! The statements about the stack (00_scope.md R5, 10_state.md R13), the calls (46_jump_branch_return.md R142, R154) and the exceptions
(47_interrupt_special_other.md R157, 60_exceptions.md R173, R178). On a stack of plain RAM pushes store their bytes from S downwards and do
nothing else, so the stack page stays; everything else is read off that. -/
namespace Sys2Proof.Proofs

open Sys2Proof.Machine Sys2Proof.Claims

section plain
variable {s t : State} {k j : Nat} {bytes : List Byte}

/-- A write to RAM that holds no request bit stores the byte and does nothing else (20_memory.md R37). -/
theorem busWrite_of_plain {a : Word} (ram : kindAt s.cfg a = .ram) (noRequest : ∀ q ∈ s.cfg.irqSources, q.requestAddress ≠ a) (v : Byte) :
    s.busWrite a v = { s with mem := s.mem.write a.toNat v } := by
  have noNote : s.noteWrite a = s.overwritten := by
    rw [State.noteWrite, if_neg]
    simpa using noRequest
  unfold State.busWrite
  dsimp only
  rw [ram, storedByte_of_no_request _ _ _ _ noRequest, noNote]

/-- The stack page depends on the selection bit alone, where the product has one (10_state.md R13). -/
theorem stackPage_congr (cfg : t.cfg = s.cfg)
    (bit : ∀ r ∈ selectionBit s.cfg, bitOf (t.mem.read r.1.toNat) r.2.toNat = bitOf (s.mem.read r.1.toNat) r.2.toNat) :
    t.stackPage = s.stackPage := by
  unfold State.stackPage
  rw [cfg]
  unfold selectionBit at bit
  split
  · rfl
  · next a k mode =>
    rw [mode] at bit
    rw [bit (a, k) List.mem_cons_self]

theorem stackAddress_of_stackPage (h : t.stackPage = s.stackPage) (v : Byte) : t.stackAddress v = s.stackAddress v := by
  rw [State.stackAddress, State.stackAddress, h]

/-- Bytes of the stack at different distances below S are different (20_memory.md R33). -/
theorem stackByte_ne {j k : Nat} (s : State) (hj : j < 256) (hk : k < 256) (h : j ≠ k) : stackByte s j ≠ stackByte s k := by
  intro same
  refine concat_ne (hi := s.stackPage) ?_ (BitVec.eq_of_toNat_eq same)
  bv_omega

/-- The byte `j + 1` below S is the byte `j` below S after a push that leaves the stack page. -/
theorem stackWord_succ (sp : t.sp = s.sp - 1#8) (page : t.stackPage = s.stackPage) (j : Nat) : stackWord t j = stackWord s (j + 1) := by
  have address : t.sp - BitVec.ofNat 8 j = s.sp - BitVec.ofNat 8 (j + 1) := by
    rw [sp]
    bv_omega
  rw [stackWord, stackWord, address, stackAddress_of_stackPage page]

theorem stackWord_zero (s : State) : stackWord s 0 = s.stackAddress s.sp := by simp [stackWord]

/-- One push onto a plain stack. -/
theorem push_of_plain (plain : PlainStack s (k + 1)) (v : Byte) :
    s.push v = { s with sp := s.sp - 1#8, mem := s.mem.write (stackByte s 0) v } ∧ (s.push v).stackPage = s.stackPage := by
  obtain ⟨ram, noRequest, noSelection⟩ := plain.1 0 (Nat.succ_pos k)
  have pushed : s.push v = { s with sp := s.sp - 1#8, mem := s.mem.write (stackByte s 0) v } := by
    rw [State.push, ← stackWord_zero, busWrite_of_plain ram noRequest]
    rfl
  refine ⟨pushed, stackPage_congr (by simp) fun r selection => ?_⟩
  have elsewhere : r.1.toNat ≠ stackByte s 0 := fun e => noSelection r selection (BitVec.eq_of_toNat_eq e)
  rw [pushed, Memory.read_write_ne _ _ elsewhere]

theorem plainStack_push (plain : PlainStack s (k + 1)) (v : Byte) : PlainStack (s.push v) k := by
  have page := (push_of_plain plain v).2
  refine ⟨fun j inside => ?_, ?_⟩
  · rw [stackWord_succ (push_sp s v) page, push_cfg]
    exact plain.1 (j + 1) (Nat.succ_lt_succ inside)
  · rw [push_cfg]
    exact plain.2

/-- What pushes of these bytes leave: byte `j` of them `j` below the old S, S down by their number, everything else as it was. -/
structure Pushed (s t : State) (bytes : List Byte) : Prop where
  keeps : t = { s with sp := s.sp - BitVec.ofNat 8 bytes.length, mem := t.mem }
  page : t.stackPage = s.stackPage
  stored : ∀ j v, bytes[j]? = some v → t.mem.read (stackByte s j) = v
  other : ∀ b, (∀ j, j < bytes.length → b ≠ stackByte s j) → t.mem.read b = s.mem.read b

/-- Pushes onto a plain stack. -/
theorem pushAll_of_plain (plain : PlainStack s bytes.length) (short : bytes.length ≤ 256) : Pushed s (pushAll s bytes) bytes := by
  induction bytes generalizing s with
  | nil => exact ⟨by simp [pushAll], rfl, nofun, fun _ _ => rfl⟩
  | cons v bytes ih =>
    obtain ⟨pushed, page⟩ := push_of_plain plain v
    have later := ih (plainStack_push plain v) (Nat.le_of_succ_le short)
    have below : ∀ j, stackByte (s.push v) j = stackByte s (j + 1) := fun j => congrArg _ (stackWord_succ (push_sp s v) page j)
    have first : (s.push v).mem.read (stackByte s 0) = v := by rw [pushed, Memory.read_write_same]
    refine ⟨?keeps, later.page.trans page, ?stored, ?other⟩
    case keeps =>
      have sp : (s.push v).sp - BitVec.ofNat 8 bytes.length = s.sp - BitVec.ofNat 8 (v :: bytes).length := by
        rw [push_sp, List.length_cons]
        bv_omega
      have keeps := later.keeps
      rw [sp] at keeps
      rw [pushAll, keeps, pushed]
    case stored =>
      intro j w here
      match j with
      | 0 =>
        obtain rfl : v = w := Option.some.inj here
        rw [pushAll, later.other _ fun j inside => ?_, first]
        rw [below]
        exact stackByte_ne s (by omega) (by simp at short; omega) (by omega)
      | j + 1 =>
        rw [pushAll, ← below]
        exact later.stored j w here
    case other =>
      intro b elsewhere
      rw [pushAll, later.other b fun j inside => by rw [below]; exact elsewhere (j + 1) (Nat.succ_lt_succ inside)]
      rw [pushed, Memory.read_write_ne _ _ (elsewhere 0 (Nat.succ_pos _))]

/-- A pull from a plain stack reads the byte that lies there. -/
theorem busRead_of_plain (plain : PlainStack s k) (inside : j < k) (cfg : t.cfg = s.cfg) (page : t.stackPage = s.stackPage) (acc : Access)
    {sp : Byte} (address : sp = s.sp - BitVec.ofNat 8 j) : t.busRead acc (t.stackAddress sp) = t.mem.read (stackByte s j) := by
  have here : t.stackAddress sp = stackWord s j := by rw [address, stackAddress_of_stackPage page, stackWord]
  have ram : kindAt t.cfg (stackWord s j) = .ram := by rw [cfg]; exact (plain.1 j inside).1
  rw [here, busRead_stored (by rw [ram]; rfl), stackByte]

end plain

/-- A push stores at the address S indicates and decrements S (00_scope.md R5). -/
theorem push_eq (s : State) (v : Byte) : s.push v = { s.busWrite (s.stackAddress s.sp) v with sp := s.sp - 1#8 } := by
  rw [State.push, busWrite_sp]

/-- Settles O4: the address from its definition, the rest from one push onto a plain stack. -/
theorem pushThenPull : Obligations.PushThenPull := by
  intro s v acc
  refine ⟨fun fixed b => stackAddress_fixed01 fixed b, ?selected, push_eq s v, ?wrap, rfl, rfl, toNat_add_one s.sp, ?plain⟩
  case selected =>
    intro a k mode b
    simp only [State.stackAddress, State.stackPage, mode]
  case wrap => rw [push_sp, toNat_sub_one]
  case plain =>
    intro plain
    have pushed : Pushed s (s.push v) [v] := pushAll_of_plain (bytes := [v]) plain (Nat.le_of_ble_eq_true rfl)
    have back : (s.push v).sp + 1#8 = s.sp - BitVec.ofNat 8 0 := by
      rw [push_sp]
      bv_omega
    have address : (s.push v).stackAddress ((s.push v).sp + 1#8) = stackWord s 0 := by
      rw [back, stackAddress_of_stackPage pushed.page, stackWord]
    have stored : (s.push v).mem.read (stackByte s 0) = v := pushed.stored 0 v rfl
    refine ⟨stored, by rw [address]; exact stored, fun b elsewhere => pushed.other b fun j inside => ?_, ?_, ?_⟩
    · obtain rfl : j = 0 := Nat.lt_one_iff.mp inside
      exact elsewhere
    · rw [State.pulled, busRead_of_plain plain Nat.one_pos (push_cfg s v) pushed.page acc back, stored]
    · rw [afterPull_sp, back, BitVec.sub_zero]

/-! ### Calls -/

section calls
variable {s t : State} {i : Instr} {target : State → Except Refusal Word} {pc : Word}

/-- The address of the last byte of the instruction, which a JSR pushes (46_jump_branch_return.md R142). -/
def lastByte (i : Instr) (s : State) : Word := s.pc + BitVec.ofNat 16 i.length - 1#16

/-- The state in which a JSR forms its target: PC past it, the address of its last byte pushed. -/
def called (i : Instr) (s : State) : State := pushAll (s.advance i.length) [highByte (lastByte i s), lowByte (lastByte i s)]

/-- Every form of JSR forms its target after the pushes and goes there (R142, 92_eei_decisions.md D12). -/
theorem exec_of_call (arm : exec i s = callSubroutine i.length target s) :
    exec i s = proceed (target (called i s)) fun pc => { called i s with pc := pc } := arm

theorem called_of_plain (i : Instr) (plain : PlainStack s 2) :
    Pushed s { called i s with pc := s.pc } [highByte (lastByte i s), lowByte (lastByte i s)] := by
  have pushed : Pushed (s.advance i.length) (called i s) [highByte (lastByte i s), lowByte (lastByte i s)] :=
    pushAll_of_plain (s := s.advance i.length) plain (Nat.le_of_ble_eq_true rfl)
  obtain ⟨keeps, page, stored, other⟩ := pushed
  exact ⟨by rw [keeps]; rfl, page, stored, other⟩

/-- The three forms of JSR and the targets they form (R142, R66, R75, R74). -/
theorem call_cases (call : (∃ w, i = .jsrAbs w ∨ i = .jsrSp w) ∨ ∃ zz, i = .jsrZpInd zz) (s : State) :
    ∃ target, exec i s = callSubroutine i.length target s := by
  obtain ⟨w, rfl | rfl⟩ | ⟨zz, rfl⟩ := call
  · exact ⟨fun _ => .ok w, rfl⟩
  · exact ⟨fun _ => .ok (concat 0xFF#8 (lowByte w)), rfl⟩
  · exact ⟨fun u => u.zeroPagePointer zz, rfl⟩

/-- What a JSR that has formed its target leaves on a plain stack (R142). -/
theorem call_leaves (plain : PlainStack s 2) (ht : t = { called i s with pc := pc }) :
    t.sp = s.sp - 2#8 ∧ t.ps = s.ps ∧ t.a = s.a ∧ t.x = s.x ∧ t.y = s.y ∧ t.cfg = s.cfg ∧ t.stackPage = s.stackPage ∧
      t.mem.read (stackByte s 0) = highByte (lastByte i s) ∧ t.mem.read (stackByte s 1) = lowByte (lastByte i s) ∧
      ∀ b, b ≠ stackByte s 0 → b ≠ stackByte s 1 → t.mem.read b = s.mem.read b := by
  obtain ⟨keeps, page, stored, other⟩ := called_of_plain i plain
  have fields : t = { s with sp := s.sp - 2#8, mem := t.mem, pc := pc } := by
    rw [ht]
    exact congrArg (fun u : State => { u with pc := pc }) keeps
  have mem : t.mem = (called i s).mem := by rw [ht]
  refine ⟨by rw [fields], by rw [fields], by rw [fields], by rw [fields], by rw [fields], by rw [fields], ?_, ?_, ?_, ?_⟩
  · rw [ht]; exact page
  · rw [mem]; exact stored 0 _ rfl
  · rw [mem]; exact stored 1 _ rfl
  · intro b ne0 ne1
    rw [mem]
    refine other b fun j inside => ?_
    match j, inside with
    | 0, _ => exact ne0
    | 1, _ => exact ne1

end calls

/-- Settles O27: the target of each form, and what the pushes leave. -/
theorem jsrResult : Obligations.JsrResult := by
  intro s i plain form
  suffices ∃ t pc, exec i s = .next t ∧ t = { called i s with pc := pc } ∧ (∀ w, i = .jsrAbs w ∨ i = .jsrSp w → t.pc = w) ∧
      ∀ zz, i = .jsrZpInd zz → t.pc = concat (t.mem.read (zz.toNat + 1)) (t.mem.read zz.toNat) by
    obtain ⟨t, pc, executed, ht, direct, indirect⟩ := this
    obtain ⟨sp, ps, a, x, y, -, -, high, low, other⟩ := call_leaves plain ht
    exact ⟨t, executed, direct, indirect, sp, ps, a, x, y, high, low, other⟩
  obtain ⟨w, rfl | ⟨rfl, wellFormed⟩⟩ | ⟨zz, rfl, notPageEnd, low, high⟩ := form
  case inl.inl =>
    refine ⟨_, w, rfl, rfl, ?_, nofun⟩
    rintro _ (⟨⟨⟩⟩ | ⟨⟨⟩⟩)
    rfl
  case inl.inr =>
    have special : concat 0xFF#8 (lowByte w) = w := by rw [← beq_iff_eq.mp wellFormed, concat_highByte_lowByte]
    refine ⟨_, concat 0xFF#8 (lowByte w), rfl, rfl, ?_, nofun⟩
    rintro _ (⟨⟨⟩⟩ | ⟨⟨⟩⟩)
    exact special
  case inr =>
    have second : (zz + 1#8).toNat = zz.toNat + 1 := by bv_omega
    obtain ⟨-, -, -, -, -, cfg, -⟩ := call_leaves (i := .jsrZpInd zz) (t := called (.jsrZpInd zz) s) plain rfl
    obtain ⟨w, hw⟩ : ∃ w, w = concat ((called (.jsrZpInd zz) s).mem.read (zz.toNat + 1)) ((called (.jsrZpInd zz) s).mem.read zz.toNat) :=
      ⟨_, rfl⟩
    have pointer : (called (.jsrZpInd zz) s).zeroPagePointer zz = .ok w := by
      simp only [State.zeroPagePointer, secondByte, if_neg notPageEnd]
      rw [busRead_stored (cfg.symm ▸ high), busRead_stored (cfg.symm ▸ low), zeroPage_toNat, zeroPage_toNat, second, hw]
    refine ⟨{ called (.jsrZpInd zz) s with pc := w }, w, ?_, rfl, ?_, ?_⟩
    · rw [exec_of_call (target := fun u => u.zeroPagePointer zz) rfl, pointer]
      rfl
    · rintro _ (⟨⟨⟩⟩ | ⟨⟨⟩⟩)
    · rintro _ ⟨⟩
      exact hw

/-- Settles O31: RTS reads the two bytes the JSR pushed. -/
theorem callThenReturn : Obligations.CallThenReturn := by
  intro s t i plain call executed
  obtain ⟨target, arm⟩ := call_cases call s
  obtain ⟨pc, -, ht⟩ := proceed_next.mp ((exec_of_call arm).symm.trans executed)
  obtain ⟨sp, ps, a, x, y, cfg, page, high, low, -⟩ := call_leaves plain ht
  have highRead := busRead_of_plain (j := 0) plain (by decide) cfg page .pullSecond (sp := t.sp + 2#8) (by rw [sp]; bv_omega)
  have lowRead := busRead_of_plain (j := 1) plain (by decide) cfg page .pullFirst (sp := t.sp + 1#8) (by rw [sp]; bv_omega)
  refine ⟨_, exec_rts t, ?_, ?_, a, x, y, ps⟩
  · rw [highRead, lowRead, high, low, concat_highByte_lowByte, lastByte, BitVec.sub_add_cancel]
  · rw [sp]
    exact BitVec.sub_add_cancel ..

/-! ### Exceptions -/

section exceptions
variable {s : State} {ret vector : Word} {b : Bool}

/-- The three bytes an exception pushes (47_interrupt_special_other.md R157, 60_exceptions.md R173). -/
def contextBytes (s : State) (ret : Word) (b : Bool) : List Byte := [highByte ret, lowByte ret, putFlag s.ps .b b]

/-- Saving the context onto a plain stack. -/
theorem saveContext_of_plain (plain : PlainStack s 3) (ret : Word) (b : Bool) :
    Pushed s { s.saveContext ret b with ps := s.ps } (contextBytes s ret b) := by
  have pushed : Pushed { s with ps := putFlag s.ps .b b } (pushAll { s with ps := putFlag s.ps .b b } (contextBytes s ret b))
      (contextBytes s ret b) := pushAll_of_plain (s := { s with ps := putFlag s.ps .b b }) plain (Nat.le_of_ble_eq_true rfl)
  have saved : { s.saveContext ret b with ps := s.ps } =
      { pushAll { s with ps := putFlag s.ps .b b } (contextBytes s ret b) with ps := s.ps } := by
    rw [State.saveContext, push_ps, push_ps]
    rfl
  obtain ⟨keeps, page, stored, other⟩ := pushed
  rw [saved]
  exact ⟨by rw [keeps], page, stored, other⟩

/-- What entering an exception from a plain stack leaves (R157, R173): the context on the stack, the stack page as it was, and the rest of
memory but for the register of the accepted source; PC from the vector. -/
structure Entered (s t : State) (ret : Word) (b : Bool) (accepted : Option IrqSource) (vector : Word) : Prop where
  keeps : t.cfg = s.cfg ∧ t.sp = s.sp - 3#8 ∧ t.a = s.a ∧ t.x = s.x ∧ t.y = s.y
  page : t.stackPage = s.stackPage
  high : t.mem.read (stackByte s 0) = highByte ret
  low : t.mem.read (stackByte s 1) = lowByte ret
  status : t.mem.read (stackByte s 2) = putFlag s.ps .b b
  other : ∀ a, a ≠ stackByte s 0 → a ≠ stackByte s 1 → a ≠ stackByte s 2 → (∀ q, accepted = some q → a ≠ q.requestAddress.toNat) →
    t.mem.read a = s.mem.read a
  request : ∀ q, accepted = some q → ∀ a k, a ≠ stackByte s 0 → a ≠ stackByte s 1 → a ≠ stackByte s 2 →
    bitOf (t.mem.read a) k = if a = q.requestAddress.toNat ∧ k = q.requestBit.toNat then false else bitOf (s.mem.read a) k
  pc : StoredVector s vector → t.pc = concat (t.mem.read (vector + 1#16).toNat) (t.mem.read vector.toNat)

/-- The bytes of the pushed context, and every other byte, before a request bit is cleared. -/
theorem saveContext_mem (plain : PlainStack s 3) (ret : Word) (b : Bool) :
    (s.saveContext ret b).mem.read (stackByte s 0) = highByte ret ∧ (s.saveContext ret b).mem.read (stackByte s 1) = lowByte ret ∧
      (s.saveContext ret b).mem.read (stackByte s 2) = putFlag s.ps .b b ∧
      ∀ a, a ≠ stackByte s 0 → a ≠ stackByte s 1 → a ≠ stackByte s 2 → (s.saveContext ret b).mem.read a = s.mem.read a := by
  obtain ⟨-, -, stored, other⟩ := saveContext_of_plain plain ret b
  refine ⟨stored 0 _ rfl, stored 1 _ rfl, stored 2 _ rfl, fun a ne0 ne1 ne2 => other a fun j inside => ?_⟩
  match j, inside with
  | 0, _ => exact ne0
  | 1, _ => exact ne1
  | 2, _ => exact ne2

/-- A request register lies at no byte of a plain stack. -/
theorem requestAddress_ne_stackByte (plain : PlainStack s 3) {q : IrqSource} (source : q ∈ s.cfg.irqSources) {j : Nat} (inside : j < 3) :
    q.requestAddress.toNat ≠ stackByte s j :=
  fun same => (plain.1 j inside).2.1 q source (BitVec.eq_of_toNat_eq same)

theorem enterException_pc (s : State) (ret : Word) (b : Bool) (accepted : Option IrqSource) {vector : Word}
    (stored : StoredVector s vector) : (s.enterException ret b accepted vector).pc =
      concat ((s.enterException ret b accepted vector).mem.read (vector + 1#16).toNat)
        ((s.enterException ret b accepted vector).mem.read vector.toNat) := by
  have cfg : ∀ u : State, u.cfg = s.cfg → (u.loadVector vector).pc =
      concat (u.mem.read (vector + 1#16).toNat) (u.mem.read vector.toNat) := fun u cfg => by
    rw [loadVector_pc, busRead_stored (cfg.symm ▸ stored.2), busRead_stored (cfg.symm ▸ stored.1)]
  cases accepted with
  | none => exact cfg _ (saveContext_cfg s ret b)
  | some q => exact cfg _ (saveContext_cfg s ret b)

/-- BRK enters with no source accepted (R157). -/
theorem enterException_of_plain (plain : PlainStack s 3) (ret : Word) (b : Bool) (vector : Word) :
    Entered s (s.enterException ret b none vector) ret b none vector := by
  obtain ⟨high, low, status, other⟩ := saveContext_mem plain ret b
  exact { keeps := ⟨by simp, by rw [enterException_sp]; bv_omega, by simp, by simp, by simp⟩
          page := (saveContext_of_plain plain ret b).page
          high, low, status
          other := fun a ne0 ne1 ne2 _ => other a ne0 ne1 ne2
          request := nofun
          pc := enterException_pc s ret b none }

/-- An acceptance enters with the request bit of its source cleared, which lies on no stack byte and is not the selection bit (R173). -/
theorem takeInterrupt_of_plain (plain : PlainStack s 3) {q : IrqSource} (source : q ∈ s.cfg.irqSources) :
    Entered s (s.takeInterrupt q) s.pc false (some q) q.vector := by
  obtain ⟨high, low, status, other⟩ := saveContext_mem plain s.pc false
  have mem : (s.takeInterrupt q).mem = putRequestBit (s.saveContext s.pc false).mem q false := rfl
  have kept : ∀ {a}, a ≠ q.requestAddress.toNat → (s.takeInterrupt q).mem.read a = (s.saveContext s.pc false).mem.read a :=
    fun elsewhere => Memory.read_write_ne _ _ elsewhere
  have stack : ∀ {j}, j < 3 → (s.takeInterrupt q).mem.read (stackByte s j) = (s.saveContext s.pc false).mem.read (stackByte s j) :=
    fun inside => kept (requestAddress_ne_stackByte plain source inside).symm
  have page : (s.takeInterrupt q).stackPage = (s.saveContext s.pc false).stackPage := by
    refine stackPage_congr (by simp) fun r selection => ?_
    rw [saveContext_cfg] at selection
    rw [mem, bitOf_putRequestBit, if_neg]
    exact fun same => plain.2 r selection q source ⟨(BitVec.eq_of_toNat_eq same.1).symm, (BitVec.eq_of_toNat_eq same.2).symm⟩
  exact { keeps := ⟨by simp, by rw [takeInterrupt_sp]; bv_omega, by simp, by simp, by simp⟩
          page := page.trans (saveContext_of_plain plain s.pc false).page
          high := (stack (by decide)).trans high
          low := (stack (by decide)).trans low
          status := (stack (by decide)).trans status
          other := fun a ne0 ne1 ne2 elsewhere => (kept (elsewhere q rfl)).trans (other a ne0 ne1 ne2)
          request := by
            rintro _ ⟨⟩ a k ne0 ne1 ne2
            rw [mem, bitOf_putRequestBit, other a ne0 ne1 ne2]
          pc := enterException_pc s s.pc false (some q) }

/-- RTI takes back what entering the exception pushed (46_jump_branch_return.md R153, 60_exceptions.md R178). -/
theorem rti_of_entered {t : State} {accepted : Option IrqSource} (plain : PlainStack s 3) (entered : Entered s t ret b accepted vector) :
    ∃ u, exec .rti t = .next u ∧ u.pc = ret ∧ u.sp = s.sp ∧ u.a = s.a ∧ u.x = s.x ∧ u.y = s.y ∧ u.ps = putFlag s.ps .b b := by
  obtain ⟨⟨cfg, sp, a, x, y⟩, page, high, low, status, -, -, -⟩ := entered
  have highRead := busRead_of_plain (j := 0) plain (by decide) cfg page .pullThird (sp := t.sp + 3#8) (by rw [sp]; bv_omega)
  have lowRead := busRead_of_plain (j := 1) plain (by decide) cfg page .pullSecond (sp := t.sp + 2#8) (by rw [sp]; bv_omega)
  have statusRead := busRead_of_plain (j := 2) plain (by decide) cfg page .pullFirst (sp := t.sp + 1#8) (by rw [sp]; bv_omega)
  refine ⟨_, exec_rti t, ?_, ?_, a, x, y, statusRead.trans status⟩
  · rw [highRead, lowRead, high, low, concat_highByte_lowByte]
  · rw [sp]
    exact BitVec.sub_add_cancel ..

end exceptions

/-- Settles O47. -/
theorem returnFromInterruptRestores : Obligations.ReturnFromInterruptRestores := by
  intro s plain
  refine ⟨fun q source => rti_of_entered plain (takeInterrupt_of_plain plain source), ?_⟩
  rintro _ ⟨⟩
  exact rti_of_entered plain (enterException_of_plain plain (s.pc + 2#16) true s.brkEntry)

/-- The vector a BRK goes to in each of the three cases of R157 (b), (c). -/
theorem brkEntry_eq {s : State} {v : Word}
    (h : (s.maskedPending = none ∧ (s.cfg.brkSharesVector = false ∨ s.cfg.irqSources = []) ∧ v = s.cfg.vecBrk) ∨
      (s.maskedPending = none ∧ s.cfg.brkSharesVector = true ∧ ∃ higher q, s.cfg.irqSources = higher ++ [q] ∧ v = q.vector) ∨
      ∃ q, s.maskedPending = some q ∧ v = q.vector) : s.brkEntry = v := by
  obtain ⟨none, notShared | noSource, rfl⟩ | ⟨none, shared, higher, q, sources, rfl⟩ | ⟨q, pending, rfl⟩ := h
  · simp only [State.brkEntry, none, brkVector, notShared]
  · simp [State.brkEntry, none, brkVector, noSource]
  · simp only [State.brkEntry, none, brkVector, shared, sources, List.getLast?_concat]
  · simp only [State.brkEntry, pending]

/-- Settles O32. -/
theorem brkResult : Obligations.BrkResult := by
  intro s v plain stored cases
  have entry := brkEntry_eq cases
  have entered := enterException_of_plain plain (s.pc + 2#16) true v
  obtain ⟨⟨-, sp, a, x, y⟩, -, high, low, status, other, -, pc⟩ := entered
  refine ⟨s.enterException (s.pc + 2#16) true none v, by rw [← entry]; rfl, sp, a, x, y, enterException_run .., high, low, status,
    fun b ne0 ne1 ne2 => other b ne0 ne1 ne2 nofun, fun f => ?flags, pc stored, fun q source => ?requests⟩
  case flags => cases f <;> simp
  case requests =>
    rw [State.requested, State.requested, other _ (requestAddress_ne_stackByte plain source (by decide))
      (requestAddress_ne_stackByte plain source (by decide)) (requestAddress_ne_stackByte plain source (by decide)) nofun]

/-- At a boundary a source that can end the run state and is acceptable is accepted, in every run state (60_exceptions.md R172, R183). -/
theorem atBoundary_of_acceptable {s : State} {q : IrqSource} (h : s.acceptable s.wakes = some q) :
    atBoundary s = .next (s.takeInterrupt q) := by
  by_cases running : s.run = .run
  · have all : s.wakes = fun _ => true := funext fun q => by rw [State.wakes, running]
    rw [all] at h
    simp only [atBoundary, running, h]
  · rw [atBoundary_of_standby running, standby_of_acceptable h]

/-- Settles O46: the acceptance enters the exception, with the cycles the product charges. -/
theorem interruptAcceptance : Obligations.InterruptAcceptance := by
  intro s q accepted plain stored
  have source := (acceptable_some accepted).1
  obtain ⟨⟨-, sp, a, x, y⟩, -, high, low, status, other, request, pc⟩ := takeInterrupt_of_plain plain source
  have bits : ∀ {p}, p ∈ s.arrive.cfg.irqSources → ∀ k, bitOf ((s.arrive.takeInterrupt q).mem.read p.requestAddress.toNat) k =
      if p.requestAddress.toNat = q.requestAddress.toNat ∧ k = q.requestBit.toNat then false
      else bitOf (s.arrive.mem.read p.requestAddress.toNat) k := fun source k =>
    request q rfl _ k (requestAddress_ne_stackByte plain source (by decide)) (requestAddress_ne_stackByte plain source (by decide))
      (requestAddress_ne_stackByte plain source (by decide))
  refine ⟨s.arrive.takeInterrupt q, atBoundary_of_acceptable accepted, sp, a, x, y, rfl, rfl, high, low, status, ?others, ?cleared,
    ?sameRegister, ?otherSources, fun f => ?flags, pc stored⟩
  case others => exact fun b ne0 ne1 ne2 elsewhere => other b ne0 ne1 ne2 (by rintro _ ⟨⟩; exact elsewhere)
  case cleared => rw [State.requested, bits source, if_pos ⟨rfl, rfl⟩]
  case sameRegister => exact fun k otherBit => by rw [bits source, if_neg fun same => otherBit same.2]
  case otherSources =>
    intro p source notSame
    rw [State.requested, State.requested, bits source, if_neg]
    exact fun same => notSame ⟨BitVec.eq_of_toNat_eq same.1, BitVec.eq_of_toNat_eq same.2⟩
  case flags => cases f <;> simp

/-- Settles O12: what the arms leave, with S and PS as the stack operations leave them. -/
theorem stackInstructions : Obligations.StackInstructions := by
  intro s
  refine ⟨?pha, ?php, rfl, rfl, rfl, rfl, rfl, rfl, cyclesOf_eq_baseCycles rfl rfl, cyclesOf_eq_baseCycles rfl rfl,
    cyclesOf_eq_baseCycles rfl rfl, cyclesOf_eq_baseCycles rfl rfl⟩
  case pha => exact congrArg Host.Outcome.next (push_eq (s.advance 1) s.a)
  case php => exact congrArg Host.Outcome.next (push_eq (s.advance 1) s.ps)

end Sys2Proof.Proofs

/-! The meaning of every form of a mnemonic that reads an operand or works on a memory byte (41_data_transfer.md R81 to R87, 42_arithmetic.md
R100, R101, 43_logic_compare.md R112 to R120, 44_shift_rotate.md R122 to R125): one shape per mnemonic, at the instruction's length. -/
namespace Sys2Proof.Proofs

open Sys2Proof.Machine Sys2Proof.Claims

/-- The meaning of each reading mnemonic, from the length and the operand of its form. -/
def readMeanings : List ((Operand → Option Instr) × (Nat → Operand → State → Result)) :=
  [(ldaForm, loadDestination), (ldxForm, loadX), (ldyForm, loadY), (cmpForm, compareDestination),
    (cpxForm, fun n o s => compareRegister n s.x o s), (cpyForm, fun n o s => compareRegister n s.y o s),
    (adcForm, fun n o s => accumulate n (adcComputed s.draws) o s), (sbcForm, fun n o s => accumulate n (sbcComputed s.draws) o s),
    (andForm, fun n o s => accumulate n andComputed o s), (oraForm, fun n o s => accumulate n oraComputed o s),
    (eorForm, fun n o s => accumulate n eorComputed o s)]

/-- The meaning of each mnemonic that stores or modifies a memory byte, from the length and the mode of its form. -/
def writeMeanings : List ((MemMode → Option Instr) × (Nat → MemMode → State → Result)) :=
  [(staForm, fun n m s => store n s.a m s), (stxForm, fun n m s => store n s.x m s), (styForm, fun n m s => store n s.y m s),
    (aslForm, fun n m s => modifyMemory n aslComputed m s), (lsrForm, fun n m s => modifyMemory n lsrComputed m s),
    (rolForm, fun n m s => modifyMemory n rolComputed m s), (rorForm, fun n m s => modifyMemory n rorComputed m s)]

section forms
variable {s : State} {i : Instr} {o : Operand} {mode : MemMode} {v : Byte} {ea : Word}

/-- Every form of a reading mnemonic has the meaning of its row. -/
theorem exec_of_readForm {form : Operand → Option Instr} {meaning : Nat → Operand → State → Result}
    (row : (form, meaning) ∈ readMeanings) (h : form o = some i) (s : State) : exec i s = meaning i.length o s := by
  simp only [readMeanings, List.mem_cons, Prod.mk.injEq, List.not_mem_nil, or_false] at row
  rcases row with ⟨rfl, rfl⟩ | ⟨rfl, rfl⟩ | ⟨rfl, rfl⟩ | ⟨rfl, rfl⟩ | ⟨rfl, rfl⟩ | ⟨rfl, rfl⟩ | ⟨rfl, rfl⟩ | ⟨rfl, rfl⟩ | ⟨rfl, rfl⟩ |
    ⟨rfl, rfl⟩ | ⟨rfl, rfl⟩
  all_goals
    cases o with
    | imm =>
      cases h
      rfl
    | mem m => cases m <;> cases h <;> rfl

/-- Every form of a storing or modifying mnemonic has the meaning of its row. -/
theorem exec_of_writeForm {form : MemMode → Option Instr} {meaning : Nat → MemMode → State → Result}
    (row : (form, meaning) ∈ writeMeanings) (h : form mode = some i) (s : State) : exec i s = meaning i.length mode s := by
  simp only [writeMeanings, List.mem_cons, Prod.mk.injEq, List.not_mem_nil, or_false] at row
  rcases row with ⟨rfl, rfl⟩ | ⟨rfl, rfl⟩ | ⟨rfl, rfl⟩ | ⟨rfl, rfl⟩ | ⟨rfl, rfl⟩ | ⟨rfl, rfl⟩ | ⟨rfl, rfl⟩
  all_goals cases mode <;> cases h <;> rfl

theorem dstRead_eq_first (s : State) : s.dstRead = first s := by rw [State.dstRead, first, zeroPage_eq_zext16]

/-- Writing the destination A or M(X), and PS (10_state.md R21). -/
theorem dstWrite_eq_destination (s : State) (n : Nat) (r ps : Byte) :
    { (s.advance n).dstWrite r with ps := ps } = destination s n r ps := by
  unfold State.dstWrite destination
  rw [zeroPage_eq_zext16, advance_ps]
  split <;> rfl

/-- What a T-dependent instruction leaves when its operand can be read. -/
theorem accumulate_eq_destination {n : Nat} {f : Byte → Byte → Byte → Computed} (h : o.read s = .ok v) :
    accumulate n f o s = .next (destination s n (f s.ps (first s) v).value (f s.ps (first s) v).ps) :=
  accumulate_next.mpr ⟨v, h, by rw [← dstWrite_eq_destination, dstRead_eq_first]⟩

end forms

/-- Settles O9. -/
theorem loadResult : Obligations.LoadResult := by
  intro s o i v read
  refine ⟨fun form => ?lda, fun form => ?ldx, fun form => ?ldy⟩
  case lda =>
    rw [exec_of_readForm (meaning := loadDestination) (by simp [readMeanings]) form]
    exact loadDestination_next.mpr ⟨v, read, (dstWrite_eq_destination ..).symm⟩
  case ldx =>
    rw [exec_of_readForm (meaning := loadX) (by simp [readMeanings]) form]
    exact loadX_next.mpr ⟨v, read, rfl⟩
  case ldy =>
    rw [exec_of_readForm (meaning := loadY) (by simp [readMeanings]) form]
    exact loadY_next.mpr ⟨v, read, rfl⟩

/-- Settles O10. -/
theorem storeResult : Obligations.StoreResult := by
  intro s m i ea address
  refine ⟨fun form => ?sta, fun form => ?stx, fun form => ?sty, fun nn zz => rfl⟩
  case sta =>
    rw [exec_of_writeForm (meaning := fun n m s => store n s.a m s) (by simp [writeMeanings]) form]
    exact store_next.mpr ⟨ea, address, rfl⟩
  case stx =>
    rw [exec_of_writeForm (meaning := fun n m s => store n s.x m s) (by simp [writeMeanings]) form]
    exact store_next.mpr ⟨ea, address, rfl⟩
  case sty =>
    rw [exec_of_writeForm (meaning := fun n m s => store n s.y m s) (by simp [writeMeanings]) form]
    exact store_next.mpr ⟨ea, address, rfl⟩

/-- Settles O19. -/
theorem logicResult : Obligations.LogicResult := by
  intro s o i m read
  refine ⟨fun form => ⟨first s &&& m, ?and, fun _ => BitVec.getLsbD_and⟩, fun form => ⟨first s ||| m, ?ora, fun _ => BitVec.getLsbD_or⟩,
    fun form => ⟨first s ^^^ m, ?eor, fun _ => BitVec.getLsbD_xor⟩⟩
  case and =>
    rw [exec_of_readForm (meaning := fun n o s => accumulate n andComputed o s) (by simp [readMeanings]) form]
    exact accumulate_eq_destination read
  case ora =>
    rw [exec_of_readForm (meaning := fun n o s => accumulate n oraComputed o s) (by simp [readMeanings]) form]
    exact accumulate_eq_destination read
  case eor =>
    rw [exec_of_readForm (meaning := fun n o s => accumulate n eorComputed o s) (by simp [readMeanings]) form]
    exact accumulate_eq_destination read

/-! ### Sums and differences as numbers -/

/-- Bit 7 as a comparison. -/
theorem bitOf_seven (v : Byte) : bitOf v 7 = decide (128 ≤ v.toNat) := BitVec.msb_eq_decide v

theorem toInt_eq_ite (v : Byte) : v.toInt = if 128 ≤ v.toNat then (v.toNat : Int) - 256 else v.toNat := by
  rw [BitVec.toInt_eq_toNat_cond]
  split <;> split <;> omega

theorem addBinary_toNat (d m : Byte) (c : Bool) : (addBinary d m c).value.toNat = (d.toNat + m.toNat + c.toNat) % 256 :=
  BitVec.toNat_ofNat ..

theorem subBinary_toNat (d m : Byte) (b : Bool) : (subBinary d m b).value.toNat = (d.toNat + 256 - m.toNat - b.toNat) % 256 := by
  have bounds := And.intro d.isLt m.isLt
  have bit := b.toNat_le
  simp only [subBinary, BitVec.toNat_ofInt]
  omega

/-- An exact signed sum leaves the range when the operands have one sign and the result the other (42_arithmetic.md R111). -/
theorem addBinary_overflow (d m : Byte) (c : Bool) : (addBinary d m c).overflow =
    (bitOf d 7 == bitOf m 7 && bitOf (addBinary d m c).value 7 != bitOf d 7) := by
  have bounds := And.intro d.isLt m.isLt
  have bit := c.toNat_le
  have overflow : (addBinary d m c).overflow = overflows (d.toInt + m.toInt + c.toNat) := rfl
  rw [overflow, bitOf_seven, bitOf_seven, bitOf_seven, addBinary_toNat, toInt_eq_ite, toInt_eq_ite, overflows, Bool.eq_iff_iff]
  by_cases dSign : 128 ≤ d.toNat <;> by_cases mSign : 128 ≤ m.toNat <;> simp [dSign, mSign] <;> omega

/-- An exact signed difference leaves the range when the signs differ and the result has not the sign of the first (R111). -/
theorem subBinary_overflow (d m : Byte) (b : Bool) : (subBinary d m b).overflow =
    (bitOf d 7 != bitOf m 7 && bitOf (subBinary d m b).value 7 != bitOf d 7) := by
  have bounds := And.intro d.isLt m.isLt
  have bit := b.toNat_le
  have overflow : (subBinary d m b).overflow = overflows (d.toInt - m.toInt - b.toNat) := rfl
  rw [overflow, bitOf_seven, bitOf_seven, bitOf_seven, subBinary_toNat, toInt_eq_ite, toInt_eq_ite, overflows, Bool.eq_iff_iff]
  by_cases dSign : 128 ≤ d.toNat <;> by_cases mSign : 128 ≤ m.toNat <;> simp [dSign, mSign] <;> omega

/-- No borrow is needed when the subtrahend with the borrow-in is not above (R111). -/
theorem subBinary_carry (d m : Byte) (b : Bool) : (subBinary d m b).carry = decide (m.toNat + b.toNat ≤ d.toNat) := by
  simp only [subBinary, decide_eq_decide]
  omega

/-- A binary ADC or SBC leaves T, B, D and I. -/
theorem flag_binaryComputed_kept (ps : Byte) (r : Sum) (f : Flag) (h : f = .t ∨ f = .b ∨ f = .d ∨ f = .i) :
    flag (binaryComputed ps r).ps f = flag ps f := by
  obtain rfl | rfl | rfl | rfl := h <;> exact flag_binaryComputed ..

/-- Settles O13. -/
theorem adcBinaryResult : Obligations.AdcBinaryResult := by
  intro s o i m form read binary
  have executed : exec i s = .next (destination s i.length _ _) := (exec_of_readForm
    (meaning := fun n o s => accumulate n (adcComputed s.draws) o s) (by simp [readMeanings]) form s).trans (accumulate_eq_destination read)
  rw [adcComputed, if_neg (by simp [binary])] at executed
  exact ⟨_, _, executed, addBinary_toNat .., flag_binaryComputed .., (flag_binaryComputed ..).trans (addBinary_overflow ..),
    flag_binaryComputed .., flag_binaryComputed .., flag_binaryComputed_kept _ _⟩

/-- Settles O14. -/
theorem sbcBinaryResult : Obligations.SbcBinaryResult := by
  intro s o i m form read binary
  have executed : exec i s = .next (destination s i.length _ _) := (exec_of_readForm
    (meaning := fun n o s => accumulate n (sbcComputed s.draws) o s) (by simp [readMeanings]) form s).trans (accumulate_eq_destination read)
  rw [sbcComputed, if_neg (by simp [binary])] at executed
  exact ⟨_, _, executed, subBinary_toNat .., (flag_binaryComputed ..).trans (subBinary_carry ..),
    (flag_binaryComputed ..).trans (subBinary_overflow ..), flag_binaryComputed .., flag_binaryComputed .., flag_binaryComputed_kept _ _⟩

/-- The status byte of a compare, flag by flag (43_logic_compare.md R118). -/
theorem compareFlags (ps d m : Byte) : flag (comparePS ps d m) .c = decide (m.toNat ≤ d.toNat) ∧
    flag (comparePS ps d m) .z = decide (d = m) ∧ flag (comparePS ps d m) .n = bitOf (d - m) 7 ∧
    ∀ f, f = .v ∨ f = .t ∨ f = .b ∨ f = .d ∨ f = .i → flag (comparePS ps d m) f = flag ps f := by
  have difference : (subBinary d m false).value = d - m := by
    refine BitVec.eq_of_toNat_eq ?_
    rw [subBinary_toNat, BitVec.toNat_sub]
    have bounds := And.intro d.isLt m.isLt
    simp only [Bool.toNat_false]
    omega
  have status : comparePS ps d m = setNZC ps (d - m) (decide (m.toNat ≤ d.toNat)) := by
    rw [← difference]
    exact congrArg (setNZC ps (subBinary d m false).value) (subBinary_carry d m false)
  rw [status]
  refine ⟨flag_setNZC .., (flag_setNZC ..).trans ?zero, flag_setNZC .., ?kept⟩
  case zero =>
    rw [if_neg (by decide), if_pos rfl, Bool.eq_iff_iff, beq_iff_eq, decide_eq_true_iff]
    exact sub_eq_zero
  case kept => rintro f (rfl | rfl | rfl | rfl | rfl) <;> exact flag_setNZC ..

/-- Settles O22. -/
theorem compareResult : Obligations.CompareResult := by
  intro s o i m d read form
  suffices exec i s = .next { s.advance i.length with ps := comparePS s.ps d m } from ⟨_, this, compareFlags s.ps d m⟩
  obtain ⟨form, rfl⟩ | ⟨form, rfl⟩ | ⟨form, rfl⟩ := form
  · rw [exec_of_readForm (meaning := compareDestination) (by simp [readMeanings]) form, ← dstRead_eq_first]
    exact compareDestination_next.mpr ⟨m, read, rfl⟩
  · rw [exec_of_readForm (meaning := fun n o s => compareRegister n s.x o s) (by simp [readMeanings]) form]
    exact compareRegister_next.mpr ⟨m, read, rfl⟩
  · rw [exec_of_readForm (meaning := fun n o s => compareRegister n s.y o s) (by simp [readMeanings]) form]
    exact compareRegister_next.mpr ⟨m, read, rfl⟩

/-! ### Packed decimal (42_arithmetic.md R110) -/

theorem isBcd_iff (v : Byte) : isBcd v = true ↔ twoDigits v := by
  simp only [isBcd, twoDigits, highNibble_toNat, lowNibble_toNat, Bool.and_eq_true, decide_eq_true_iff]

theorem fromBcd_eq_decimal (v : Byte) : fromBcd v = decimal v := by rw [fromBcd, decimal, highNibble_toNat, lowNibble_toNat]

/-- A number below 100 has the packed decimal byte that stands for it. -/
theorem toBcd_spec {n : Nat} (small : n < 100) : twoDigits (toBcd n) ∧ decimal (toBcd n) = n := by
  have value : (toBcd n).toNat = 16 * (n / 10) + n % 10 := by
    rw [toBcd, BitVec.toNat_ofNat]
    omega
  unfold twoDigits decimal
  rw [value]
  omega

theorem decimal_lt {v : Byte} (h : twoDigits v) : decimal v < 100 := by
  unfold twoDigits at h
  unfold decimal
  omega

theorem addDecimal_spec (d m : Byte) (c : Bool) : twoDigits (addDecimal d m c).value ∧
    decimal (addDecimal d m c).value = (decimal d + decimal m + c.toNat) % 100 ∧
    (addDecimal d m c).carry = decide (decimal d + decimal m + c.toNat > 99) := by
  obtain ⟨digits, value⟩ := toBcd_spec (Nat.mod_lt (decimal d + decimal m + c.toNat) (by decide : 0 < 100))
  simp only [addDecimal, fromBcd_eq_decimal]
  exact ⟨digits, value, trivial⟩

theorem subDecimal_spec {d m : Byte} (dDigits : twoDigits d) (mDigits : twoDigits m) (b : Bool) : twoDigits (subDecimal d m b).value ∧
    decimal (subDecimal d m b).value = (decimal d + 100 - decimal m - b.toNat) % 100 ∧
    (subDecimal d m b).carry = decide (decimal m + b.toNat ≤ decimal d) := by
  have bounds := And.intro (decimal_lt dDigits) (decimal_lt mDigits)
  have bit := b.toNat_le
  have difference : (((decimal d : Int) - decimal m - b.toNat) % 100).toNat = (decimal d + 100 - decimal m - b.toNat) % 100 := by omega
  obtain ⟨digits, value⟩ := toBcd_spec (Nat.mod_lt (decimal d + 100 - decimal m - b.toNat) (by decide : 0 < 100))
  simp only [subDecimal, fromBcd_eq_decimal, difference]
  refine ⟨digits, value, ?_⟩
  rw [decide_eq_decide]
  omega

/-- On packed decimal operands the byte and C are those of the decimal sum or difference. -/
theorem decimalComputed_of_twoDigits {d m : Byte} (dDigits : twoDigits d) (mDigits : twoDigits m) (draw : Nat) (ps : Byte)
    (r : DecimalSum) :
    (decimalComputed draw ps d m r).value = r.value ∧ flag (decimalComputed draw ps d m r).ps .c = r.carry := by
  have valid : (isBcd d && isBcd m) = true := by rw [(isBcd_iff d).mpr dDigits, (isBcd_iff m).mpr mDigits]; rfl
  simp [decimalComputed, valid]

/-- No instruction is both a form of ADC and a form of SBC. -/
theorem adcForm_ne_sbcForm {o : Operand} {i : Instr} (adc : adcForm o = some i) (sbc : sbcForm o = some i) : False := by
  cases o with
  | imm =>
    cases adc
    cases sbc
  | mem m => cases m <;> cases adc <;> cases sbc

/-- Settles O15. -/
theorem decimalResult : Obligations.DecimalResult := by
  intro s o i m read mode form
  obtain form | form := form
  · have executed : exec i s = .next (destination s i.length _ _) := (exec_of_readForm
      (meaning := fun n o s => accumulate n (adcComputed s.draws) o s) (by simp [readMeanings]) form s).trans
      (accumulate_eq_destination read)
    rw [adcComputed, if_pos mode] at executed
    refine ⟨_, _, executed, flag_decimalComputed_other _ _ _ _ _, fun dDigits mDigits => ?_⟩
    obtain ⟨value, carry⟩ := decimalComputed_of_twoDigits dDigits mDigits s.draws s.ps (addDecimal (first s) m (flag s.ps .c))
    rw [value, carry]
    obtain ⟨digits, sum⟩ := addDecimal_spec (first s) m (flag s.ps .c)
    exact ⟨digits, fun _ => sum, fun sbc => (adcForm_ne_sbcForm form sbc).elim⟩
  · have executed : exec i s = .next (destination s i.length _ _) := (exec_of_readForm
      (meaning := fun n o s => accumulate n (sbcComputed s.draws) o s) (by simp [readMeanings]) form s).trans
      (accumulate_eq_destination read)
    rw [sbcComputed, if_pos mode] at executed
    refine ⟨_, _, executed, flag_decimalComputed_other _ _ _ _ _, fun dDigits mDigits => ?_⟩
    obtain ⟨value, carry⟩ := decimalComputed_of_twoDigits dDigits mDigits s.draws s.ps (subDecimal (first s) m (!flag s.ps .c))
    rw [value, carry]
    obtain ⟨digits, difference⟩ := subDecimal_spec dDigits mDigits (!flag s.ps .c)
    exact ⟨digits, fun adc => (adcForm_ne_sbcForm adc form).elim, fun _ => difference⟩

/-! ### Shifts and rotations -/

/-- The computation of each shift (44_shift_rotate.md R122 to R125). -/
def shiftComputed : Shift → Byte → Byte → Computed
  | .asl => aslComputed
  | .lsr => lsrComputed
  | .rol => rolComputed
  | .ror => rorComputed

theorem exec_shiftFormA (k : Shift) (s : State) : exec (shiftFormA k) s = modifyA (shiftComputed k) s := by cases k <;> rfl

theorem exec_of_shiftForm {k : Shift} {m : MemMode} {i : Instr} (form : shiftForm k m = some i) (s : State) :
    exec i s = modifyMemory i.length (shiftComputed k) m s := by
  cases k with
  | asl => exact exec_of_writeForm (form := aslForm) (meaning := fun n m s => modifyMemory n aslComputed m s) (by simp [writeMeanings]) form s
  | lsr => exact exec_of_writeForm (form := lsrForm) (meaning := fun n m s => modifyMemory n lsrComputed m s) (by simp [writeMeanings]) form s
  | rol => exact exec_of_writeForm (form := rolForm) (meaning := fun n m s => modifyMemory n rolComputed m s) (by simp [writeMeanings]) form s
  | ror => exact exec_of_writeForm (form := rorForm) (meaning := fun n m s => modifyMemory n rorComputed m s) (by simp [writeMeanings]) form s

theorem shiftLeft_toNat (v : Byte) : (v <<< 1).toNat = 2 * v.toNat % 256 := by
  rw [BitVec.toNat_shiftLeft, Nat.shiftLeft_eq, Nat.mul_comm]

theorem shiftRight_toNat (v : Byte) : (v >>> 1).toNat = v.toNat / 2 := by
  rw [BitVec.toNat_ushiftRight, Nat.shiftRight_eq_div_pow]

/-- Setting a bit that is 0 adds its weight; leaving it 0 changes nothing. -/
theorem toNat_putBit_of_clear {v : Byte} {k : Nat} (inside : k < 8) (clear : bitOf v k = false) (b : Bool) :
    (putBit v k b).toNat = (v.toNat + (bitMask k).toNat * b.toNat) % 256 := by
  cases b with
  | true =>
    have disjoint : v &&& bitMask k = 0#8 := by
      refine BitVec.eq_of_getLsbD_eq fun j _ => ?_
      rw [BitVec.getLsbD_and, bitMask, BitVec.getLsbD_shiftLeft, BitVec.getLsbD_one, BitVec.getLsbD_zero]
      by_cases same : j = k
      · rw [same, ← bitOf, clear, Bool.false_and]
      · simp only [Bool.and_eq_false_iff, Bool.not_eq_false', decide_eq_false_iff_not, decide_eq_true_iff]
        omega
    rw [putBit, if_pos rfl, ← BitVec.add_eq_or_of_and_eq_zero _ _ disjoint, BitVec.toNat_add, Bool.toNat_true, Nat.mul_one]
  | false =>
    have unchanged : putBit v k false = v := by
      refine BitVec.eq_of_getLsbD_eq fun j _ => ?_
      rw [← bitOf, bitOf_putBit _ _ _ _ inside]
      split
      · next same => rw [← clear, same, bitOf]
      · rfl
    rw [unchanged, Bool.toNat_false, Nat.mul_zero, Nat.add_zero, Nat.mod_eq_of_lt v.isLt]

/-- Each shift as a number, with C, N and Z (R122 to R125). -/
theorem shiftComputed_spec (k : Shift) (ps v : Byte) :
    (shiftComputed k ps v).value.toNat = shiftResult k v.toNat (flag ps .c) ∧
      (shiftComputed k ps v).ps = setNZC ps (shiftComputed k ps v).value (shiftCarry k v) := by
  have bound := v.isLt
  cases k with
  | asl => exact ⟨shiftLeft_toNat v, rfl⟩
  | lsr => exact ⟨shiftRight_toNat v, lsrComputed_ps ps v⟩
  | rol =>
    refine ⟨(toNat_putBit_of_clear (by decide) (by simp [bitOf]) _).trans ?_, rfl⟩
    rw [shiftLeft_toNat]
    simp [shiftResult, bitMask]
  | ror =>
    refine ⟨(toNat_putBit_of_clear (by decide) (by simp [bitOf]) _).trans ?_, rfl⟩
    rw [shiftRight_toNat]
    have bit := (flag ps .c).toNat_le
    have weight : (bitMask 7).toNat = 128 := rfl
    rw [weight, shiftResult]
    omega

/-- LSR makes N 0 (R123). -/
theorem flag_n_of_lsr {k : Shift} (ps v : Byte) (h : k = .lsr) : flag (shiftComputed k ps v).ps .n = false := by
  subst h
  simp [shiftComputed, lsrComputed]

/-- Settles O23. -/
theorem shiftResult : Obligations.ShiftResult := by
  intro s k
  refine ⟨?accumulator, fun m i ea form address => ?memory⟩
  case accumulator =>
    obtain ⟨value, status⟩ := shiftComputed_spec k s.ps s.a
    exact ⟨_, _, (exec_shiftFormA k s).trans (modifyA_next.mpr rfl), value, status, flag_n_of_lsr s.ps s.a⟩
  case memory =>
    obtain ⟨value, status⟩ := shiftComputed_spec k s.ps (s.busRead .data ea)
    exact ⟨_, _, (exec_of_shiftForm form s).trans (modifyMemory_next.mpr ⟨ea, address, rfl⟩), value, status, flag_n_of_lsr s.ps _⟩

/-! ### MUL and DIV -/

/-- One push as MUL and DIV leave it, with A. -/
theorem push_with_a (s : State) (v q : Byte) : { (s.advance 2).push v with a := q } =
    { (s.advance 2).busWrite (s.stackAddress s.sp) v with sp := s.sp - 1#8, a := q } := by
  rw [push_eq]
  rfl

/-- Settles O17. -/
theorem mulResult : Obligations.MulResult := by
  intro s zz
  refine ⟨rfl, cyclesOf_eq_baseCycles rfl rfl, exec_mulZpX_of_absent zz, fun present => ?_⟩
  obtain ⟨p, hp⟩ : ∃ p : Word, p = BitVec.ofNat 16 (s.a.toNat * (s.busRead .data (zeroPage (zz + s.x))).toNat) := ⟨_, rfl⟩
  have small : s.a.toNat * (s.busRead .data (zeroPage (zz + s.x))).toNat ≤ 255 * 255 :=
    Nat.mul_le_mul (Nat.le_of_lt_succ s.a.isLt) (Nat.le_of_lt_succ (BitVec.isLt _))
  refine ⟨highByte p, lowByte p, ?value, ?executed⟩
  case value =>
    rw [← concat_toNat, concat_highByte_lowByte, hp, BitVec.toNat_ofNat]
    exact Nat.mod_eq_of_lt (Nat.lt_of_le_of_lt small (by decide))
  case executed =>
    rw [← push_with_a, hp]
    exact whenPresent_next.mpr ⟨present, rfl⟩

/-- What DIV leaves, once the second byte of the dividend has its address (42_arithmetic.md R109). -/
theorem divide_eq {s : State} {zz : Byte} {h : Word} (second : secondByte s.cfg.zeroPagePointerWrap (zz + s.x) = .ok h) {w : Word}
    (dividend : w = concat (s.busRead .dividendHigh h) (s.busRead .dividendLow (zeroPage (zz + s.x)))) :
    divide zz s = .next (if s.a.toNat = 0 ∨ w.toNat / s.a.toNat > 255 then
        { (s.advance 2).push (Config.unspecifiedByte s.draws .remainder) with a := Config.unspecifiedByte s.draws .quotient }
      else { (s.advance 2).push (~~~BitVec.ofNat 8 (w.toNat % s.a.toNat)) with a := BitVec.ofNat 8 (w.toNat / s.a.toNat) }) := by
  subst dividend
  exact proceed_next.mpr ⟨h, second, rfl⟩

/-- Quotient and remainder of a 16-bit dividend whose upper byte is below the divisor fit in a byte each (R109). -/
theorem division_fits {a hi lo w : Nat} (dividend : w = hi * 256 + lo) (loBound : lo < 256) (aBound : a < 256) (below : hi < a) :
    w / a < 256 ∧ w % a < 256 ∧ w / a * a + w % a = w ∧ w % a < a := by
  have positive : 0 < a := Nat.zero_lt_of_lt below
  have remainder := Nat.mod_lt w positive
  refine ⟨(Nat.div_lt_iff_lt_mul positive).mpr (by omega), by omega, ?_, remainder⟩
  rw [Nat.mul_comm]
  exact Nat.div_add_mod w a

/-- Settles O18. -/
theorem divResult : Obligations.DivResult := by
  intro s zz
  refine ⟨rfl, cyclesOf_eq_baseCycles rfl rfl, exec_divZpX_of_absent zz, ?refused, ?completes⟩
  case refused =>
    intro r present second
    have executed : exec (.divZpX zz) s = divide zz s := if_pos present
    rw [executed]
    exact proceed_refused.mpr second
  case completes =>
    rintro h lo hi present second rfl rfl
    have executed : exec (.divZpX zz) s = divide zz s := if_pos present
    obtain ⟨w, dividend⟩ : ∃ w, w = concat (s.busRead .dividendHigh h) (s.busRead .dividendLow (zeroPage (zz + s.x))) := ⟨_, rfl⟩
    have value : w.toNat = (s.busRead .dividendHigh h).toNat * 256 + (s.busRead .dividendLow (zeroPage (zz + s.x))).toNat := by
      rw [dividend, concat_toNat]
    rw [executed, divide_eq second dividend]
    split
    case isTrue free =>
      refine ⟨_, _, congrArg _ (push_with_a ..), fun below => ?_⟩
      obtain ⟨quotient, -, -, -⟩ := division_fits value (BitVec.isLt _) s.a.isLt below
      omega
    case isFalse defined =>
      refine ⟨_, _, congrArg _ (push_with_a ..), fun below => ?_⟩
      obtain ⟨quotient, remainder, sum, small⟩ := division_fits value (BitVec.isLt _) s.a.isLt below
      have complement : 255 - (~~~BitVec.ofNat 8 (w.toNat % s.a.toNat)).toNat = w.toNat % s.a.toNat := by
        rw [BitVec.toNat_not, BitVec.toNat_ofNat]
        omega
      rw [complement, BitVec.toNat_ofNat, Nat.mod_eq_of_lt quotient, ← value]
      exact ⟨sum, small⟩

end Sys2Proof.Proofs

/-! The statements about the bus and the ports (20_memory.md R37 to R40, 60_exceptions.md R174, 70_reset_and_hazards.md R207), the addressing
modes (40_addressing_modes.md R63 to R73), JMP (46_jump_branch_return.md R140) and WIT, STP, NOP (47_interrupt_special_other.md R158 to
R160). -/
namespace Sys2Proof.Proofs

open Sys2Proof.Machine Sys2Proof.Claims

/-! ### Memory and registers -/

section bus
variable {s : State} {c : Config} {a ea : Word} {old v : Byte} {k : Nat}

/-- A request bit that no program can set stays 0 where it was 0 (60_exceptions.md R174). -/
theorem bitOf_storedByte_of_clearOnly (h : ClearOnly c a k) : bitOf (storedByte c a old v) k = (bitOf v k && bitOf old k) := by
  obtain ⟨q, source, address, bit, cannotSet⟩ := h
  exact bitOf_mapRequestBits_of_some c a (fun q => !q.setByWrite) (fun o n => n && o) (by decide) old v k
    ⟨q, source, address, bit, by rw [cannotSet, Bool.not_false]⟩

/-- Every other bit takes the written value. -/
theorem bitOf_storedByte_of_not_clearOnly (h : ¬ ClearOnly c a k) : bitOf (storedByte c a old v) k = bitOf v k := by
  refine bitOf_mapRequestBits_of_none c a _ _ old v k fun q source address bit => ?_
  rw [Bool.not_eq_false', ← Bool.not_eq_false]
  exact fun cannotSet => h ⟨q, source, address, bit, cannotSet⟩

theorem busWrite_mem_of_register {b : RegisterBehaviour} (kind : kindAt s.cfg ea = .register b) (v : Byte) : (s.busWrite ea v).mem =
    requestsOnWrite s.cfg s.draws ea b.mayRequest
      (s.mem.write ea.toNat (storedByte s.cfg ea (s.mem.read ea.toNat) (underMask b.writeMask (s.mem.read ea.toNat) v))) := by
  unfold State.busWrite
  dsimp only
  rw [kind]

/-- A bit of a register after a write there: the stored bit, or 1 where the write may request (70_reset_and_hazards.md R207). -/
theorem bitOf_busWrite_register {b : RegisterBehaviour} (kind : kindAt s.cfg ea = .register b) (v : Byte) (k : Nat) :
    bitOf ((s.busWrite ea v).mem.read ea.toNat) k =
        bitOf (storedByte s.cfg ea (s.mem.read ea.toNat) (underMask b.writeMask (s.mem.read ea.toNat) v)) k ∨
      (bitOf ((s.busWrite ea v).mem.read ea.toNat) k = true ∧ MayBeRequested s.cfg ea ea.toNat k) := by
  rw [busWrite_mem_of_register kind]
  obtain kept | ⟨one, requested⟩ := bitOf_requestsOnWrite s.cfg s.draws ea b.mayRequest (s.mem.write ea.toNat
    (storedByte s.cfg ea (s.mem.read ea.toNat) (underMask b.writeMask (s.mem.read ea.toNat) v))) ea.toNat k
  · rw [Memory.read_write_same] at kept
    exact .inl kept
  · exact .inr ⟨one, b, kind, requested⟩

/-- ROM, unmapped addresses and devices take no write (20_memory.md R37, 92_eei_decisions.md D11). -/
theorem busWrite_of_no_store (h : kindAt s.cfg ea = .rom ∨ kindAt s.cfg ea = .unmapped ∨ kindAt s.cfg ea = .device) (v : Byte) :
    s.busWrite ea v = s := by
  unfold State.busWrite
  dsimp only
  obtain kind | kind | kind := h <;> rw [kind]

end bus

/-- Settles O5: each kind of address by its own rule. -/
theorem busWriteThenRead : Obligations.BusWriteThenRead := by
  intro s ea v
  refine ⟨?ram, ?register, (busWrite_of_no_store · v), fun a k elsewhere => bitOf_busWrite_elsewhere elsewhere⟩
  case ram =>
    intro kind acc
    refine ⟨busRead_stored (by rw [busWrite_cfg, kind]; rfl) acc, fun k _ => ?_⟩
    rw [busWrite_read_same kind]
    exact ⟨bitOf_storedByte_of_not_clearOnly, bitOf_storedByte_of_clearOnly⟩
  case register =>
    intro b kind k inside
    refine ⟨fun acc readable => bitOf_presented_register (by rw [busWrite_cfg, kind]) readable acc _, ?_⟩
    rintro w r hw hr
    rw [← bitOf_underMask _ _ _ _ inside] at hw
    obtain stored | requested := bitOf_busWrite_register kind v k
    · refine .inl (stored.trans ?_)
      obtain ⟨settable, rfl⟩ | ⟨clearOnly, rfl⟩ := hr
      · rw [bitOf_storedByte_of_not_clearOnly settable, hw]
      · rw [bitOf_storedByte_of_clearOnly clearOnly, hw]
    · exact .inr requested

/-! ### Ports -/

/-- A port read bit by bit (20_memory.md R40). -/
theorem bitOf_portRead (c : PortConfig) (p : Port) {k : Nat} (inside : k < 8) : bitOf (portRead c p) k =
    if bitOf p.direction k = c.outputValue then (if bitOf c.peripheralMask k then bitOf p.peripheral k else bitOf p.latch k)
    else bitOf p.pins k := by
  have output : bitOf (if c.outputValue then p.direction else ~~~p.direction) k = (bitOf p.direction k == c.outputValue) := by
    cases c.outputValue <;> simp [bitOf, inside]
  have masks : portRead c p = underMask (if c.outputValue then p.direction else ~~~p.direction) p.pins
      (underMask c.peripheralMask p.latch p.peripheral) := rfl
  rw [masks, bitOf_underMask _ _ _ _ inside, bitOf_underMask _ _ _ _ inside, output]
  simp only [beq_iff_eq]

section ports
variable {s : State} {ea : Word} {n : Nat}

theorem port_set_same (s : State) (inside : n < s.ports.length) (p : Port) : ({ s with ports := s.ports.set n p } : State).port n = p := by
  simp [State.port, List.getD_eq_getElem?_getD, inside]

theorem busWrite_of_port (kind : kindAt s.cfg ea = .port n) (v : Byte) :
    s.busWrite ea v = { s with ports := s.ports.set n { s.port n with latch := v } } := by
  unfold State.busWrite
  dsimp only
  rw [kind]

theorem busWrite_of_direction (kind : kindAt s.cfg ea = .direction n) (v : Byte) :
    s.busWrite ea v = { s with ports := s.ports.set n { s.port n with direction := v } } := by
  unfold State.busWrite
  dsimp only
  rw [kind]

theorem busRead_of_port (kind : kindAt s.cfg ea = .port n) (acc : Access) : s.busRead acc ea = portRead (portConfig s.cfg n) (s.port n) := by
  unfold State.busRead State.presented
  rw [kind]

end ports

/-- Settles O6. -/
theorem portWriteThenRead : Obligations.PortWriteThenRead := by
  intro s ea n v inside
  refine ⟨fun kind => ?port, fun kind => ?direction, fun kind => ⟨fun m other => ?others, ?memory⟩⟩
  case port =>
    have latched : (s.busWrite ea v).port n = { s.port n with latch := v } := by rw [busWrite_of_port kind, port_set_same s inside]
    refine ⟨fun acc k small => ?_, latched⟩
    rw [busRead_of_port (n := n) (by rw [busWrite_cfg, kind]), bitOf_portRead _ _ small, latched, busWrite_cfg]
  case direction => rw [busWrite_of_direction kind, port_set_same s inside]
  case others =>
    refine busWrite_port_of_ne ?_
    obtain kind | kind := kind <;> simp [kind, other.symm]
  case memory => obtain kind | kind := kind <;> exact busWrite_mem_of_not_stored (by simp [kind]) (by simp [kind]) v

/-! ### Addresses -/

/-- Adding an index register to a zero-page address wraps modulo 256 (20_memory.md R48). -/
theorem zeroPage_add_toNat (zz index : Byte) : (zeroPage (zz + index)).toNat = (zz.toNat + index.toNat) % 256 := by
  rw [zeroPage_toNat, BitVec.toNat_add]

/-- Adding an index register to a 16-bit address wraps modulo 65536 (20_memory.md R30). -/
theorem add_zext16_toNat (base : Word) (index : Byte) : (base + zext16 index).toNat = (base.toNat + index.toNat) % 65536 := by
  rw [BitVec.toNat_add, zext16_toNat]

/-- Settles O7. -/
theorem directAddresses : Obligations.DirectAddresses := fun s zz hhll =>
  ⟨_, _, _, _, _, _, rfl, zeroPage_toNat zz, rfl, zeroPage_add_toNat zz s.x, rfl, zeroPage_add_toNat zz s.y, rfl, rfl, rfl,
    add_zext16_toNat hhll s.x, rfl, add_zext16_toNat hhll s.y⟩

section pointers
variable {s : State} {p zz : Byte} {h base : Word} {r : Refusal}

/-- A pointer of two stored bytes, low byte first (20_memory.md R35). -/
theorem zeroPagePointer_of_stored (second : secondByte s.cfg.zeroPagePointerWrap p = .ok h) (low : Stored s (zeroPage p))
    (high : Stored s h) : s.zeroPagePointer p = .ok (concat (s.mem.read h.toNat) (s.mem.read p.toNat)) := by
  simp only [State.zeroPagePointer, second]
  rw [busRead_stored high, busRead_stored low, zeroPage_toNat]

theorem secondByte_of_inside (w : ZeroPagePointerWrap) (inside : p ≠ 0xFF#8) : secondByte w p = .ok (zeroPage (p + 1#8)) := if_neg inside

/-- The byte after one that is not the last of the zero page. -/
theorem toNat_add_one_of_inside (inside : p ≠ 0xFF#8) : (p + 1#8).toNat = p.toNat + 1 := by bv_omega

theorem indY_of_pointer (pointer : s.zeroPagePointer zz = .ok base) : (MemMode.indY zz).address s = .ok (base + zext16 s.y) := by
  simp only [MemMode.address, pointer]

theorem indY_of_refused (pointer : s.zeroPagePointer zz = .error r) : (MemMode.indY zz).address s = .error r := by
  simp only [MemMode.address, pointer]

/-- Where the second byte of a pointer at the end of the zero page is read, where the product reads it (20_memory.md R49). -/
theorem secondByte_at_page_end {w : ZeroPagePointerWrap}
    (at_h : (w = .wrapInZeroPage ∧ h = 0x0000#16) ∨ (w = .crossToPage1 ∧ h = 0x0100#16)) :
    secondByte w 0xFF#8 = .ok h := by
  obtain ⟨rfl, rfl⟩ | ⟨rfl, rfl⟩ := at_h <;> rfl

end pointers

/-- Settles O8. -/
theorem indirectAddresses : Obligations.IndirectAddresses := by
  intro s zz
  refine ⟨?indX, ?indY, ?refused, ?pageEnd⟩
  case indX =>
    intro inside low high
    refine ⟨_, zeroPagePointer_of_stored (secondByte_of_inside _ inside) low high, ?_⟩
    rw [concat_toNat, zeroPage_toNat, toNat_add_one_of_inside inside, BitVec.toNat_add, Nat.add_comm, Nat.mul_comm]
  case indY =>
    intro inside low high
    refine ⟨_, indY_of_pointer (zeroPagePointer_of_stored (secondByte_of_inside _ inside) low high), ?_⟩
    rw [add_zext16_toNat, concat_toNat, zeroPage_toNat, toNat_add_one_of_inside inside, Nat.add_comm (_ * _), Nat.mul_comm]
  case refused =>
    intro refuse
    have pointer : s.zeroPagePointer 0xFF#8 = .error .zeroPagePointerPageEnd := by
      simp only [State.zeroPagePointer, secondByte, refuse, if_true]
    exact ⟨pointer, fun pageEnd => (congrArg s.zeroPagePointer pageEnd).trans pointer, indY_of_refused pointer⟩
  case pageEnd =>
    intro h at_h low high
    have pointer := zeroPagePointer_of_stored (secondByte_at_page_end at_h) low high
    refine ⟨pointer, fun pageEnd => (congrArg s.zeroPagePointer pageEnd).trans pointer, _, indY_of_pointer pointer, ?_⟩
    rw [add_zext16_toNat, concat_toNat, Nat.add_comm (_ * _), Nat.mul_comm]
    rfl

/-! ### JMP, WIT, STP, NOP -/

section jumps
variable (s : State) (hhll : Word) (zz : Byte)

theorem exec_jmpInd : exec (.jmpInd hhll) s = proceed (s.indirectTarget hhll) fun pc => { s with pc := pc } := rfl

theorem exec_jmpZpInd : exec (.jmpZpInd zz) s = proceed (s.zeroPagePointer zz) fun pc => { s with pc := pc } := rfl

end jumps

/-- Settles O26. -/
theorem jmpResult : Obligations.JmpResult := by
  intro s hhll h zz r
  refine ⟨⟨rfl, rfl, rfl, cyclesOf_eq_baseCycles rfl rfl, cyclesOf_eq_baseCycles rfl rfl, cyclesOf_eq_baseCycles rfl rfl⟩, rfl,
    fun inside => ?indirect, fun pageEnd => ?indirectRefused, fun second => ?zeroPage, fun second => ?zeroPageRefused⟩
  case indirect => rw [exec_jmpInd, State.indirectTarget, if_neg inside, proceed_ok]
  case indirectRefused => rw [exec_jmpInd, State.indirectTarget, if_pos pageEnd, proceed_error]
  case zeroPage =>
    rw [exec_jmpZpInd]
    exact proceed_next.mpr ⟨_, by simp only [State.zeroPagePointer, second], rfl⟩
  case zeroPageRefused =>
    rw [exec_jmpZpInd]
    exact proceed_refused.mpr (by simp only [State.zeroPagePointer, second])

/-- Settles O34. -/
theorem witStpNopResult : Obligations.WitStpNopResult := by
  intro s
  exact ⟨rfl, rfl, rfl, cyclesOf_eq_baseCycles rfl rfl, cyclesOf_eq_baseCycles rfl rfl, cyclesOf_eq_baseCycles rfl rfl,
    fun present => if_pos present, fun valid => congrArg Host.Outcome.next (if_pos valid), exec_stp_of_invalid, rfl⟩

end Sys2Proof.Proofs
